-- ==== Sys2Proof/Word.lean ====
section
/-! DEFINITION. The words of the block: port words, colours, bytes, codepoints, delay counts and the orientation
names (spec/00_scope.md R7, R10–R12). -/

namespace Sys2Proof

/-- One word of the register port and one command word (R38, R61). -/
abbrev Word := BitVec 32

/-- An RGB565 colour, the contents of one framebuffer cell (R11, R76). -/
abbrev Colour := BitVec 16

/-- A component byte, a font row, or one byte of the 128-byte image (R46, R63, R114). -/
abbrev Byte := BitVec 8

/-- A codepoint (R12). -/
abbrev Codepoint := BitVec 21

/-- A per-column delay in engine ticks: `DELAY >> 3` fits 29 bits (R29). -/
abbrev Ticks := BitVec 29

/-- A word number on the register port. The offset space is 12 bits wide and offset bits [1:0] do not exist, so an
access is named by the other ten (R38, R48). -/
abbrev PortAddr := BitVec 10

/-- The current orientation (R10, R13). -/
inductive Orientation where
  | up | right | down | left
deriving DecidableEq, Repr

end Sys2Proof
end

