-- ==== Sys2Proof/Syntax.lean ====
section
/-! DEFINITION. The commands, one constructor per row of spec/opcode_table.json (spec/30_encoding.md R64). -/

namespace Sys2Proof

/-- A command with its operands in the order of R72. Coordinates are numbers (the fields admit 0..15, and 8..15 are
out of range, R63), the angle is an integer number of degrees. -/
inductive Instr where
  | nop
  | setpx (x y : Nat) (color : Colour)
  | getpx (x y : Nat)
  | setpxa (x y : Nat) (color : Colour)
  | getpxa (x y : Nat)
  | setall (color : Colour)
  | setdata
  | dataclr
  | transpose
  | reflv
  | reflh
  | rotate (deg : Int)
  | setorient (o : Orientation)
  | showchar (cp : Codepoint)
  | shiftc (color : Colour)
  | shifts
  | scroll
  | strclr
  | clrerr
  | flush
  | pack (r g b : Byte)
  | unpack (color : Colour)
  | insr (color : Colour) (v : Byte)
  | insg (color : Colour) (v : Byte)
  | insb (color : Colour) (v : Byte)
deriving DecidableEq, Repr

end Sys2Proof
end

