-- ==== Sys2Proof/WellFormed.lean ====
section
/-! DEFINITION. Which commands a word can spell: every operand fits its field (spec/30_encoding.md R62, R63, R72). -/

namespace Sys2Proof

/-- A 4-bit coordinate field holds 0..15; 8..15 encode and then raise COORD (R63, R72). -/
def fitsCoordField (n : Nat) : Bool := decide (n ≤ 15)

/-- The signed 16-bit angle field holds −32768..32767 (R63, R72). -/
def fitsAngleField (deg : Int) : Bool := decide (-32768 ≤ deg ∧ deg ≤ 32767)

/-- Every operand fits its field. The other operands are words of their field's width already. -/
def WellFormed : Instr → Bool
  | .nop => true
  | .setpx x y _ => fitsCoordField x && fitsCoordField y
  | .getpx x y => fitsCoordField x && fitsCoordField y
  | .setpxa x y _ => fitsCoordField x && fitsCoordField y
  | .getpxa x y => fitsCoordField x && fitsCoordField y
  | .setall _ => true
  | .setdata => true
  | .dataclr => true
  | .transpose => true
  | .reflv => true
  | .reflh => true
  | .rotate deg => fitsAngleField deg
  | .setorient _ => true
  | .showchar _ => true
  | .shiftc _ => true
  | .shifts => true
  | .scroll => true
  | .strclr => true
  | .clrerr => true
  | .flush => true
  | .pack _ _ _ => true
  | .unpack _ => true
  | .insr _ _ => true
  | .insg _ _ => true
  | .insb _ _ => true

end Sys2Proof
end

