-- ==== Sys2Proof/Decode.lean ====
section
/-! DEFINITION. Decoding a CMD word and encoding a command (spec/30_encoding.md R61–R70, R72, R75). -/

namespace Sys2Proof

/-- Why a word is no command; each reason raises Error(ILLEGAL) (R65, R66, R67). -/
inductive Illegal where
  /-- Opcode 0x17–0x1F (R65). -/
  | reservedOpcode
  /-- A reserved field is not all zero (R66). -/
  | reservedBits
  /-- Opcode 0x16 with sel 3..7 (R67). -/
  | reservedSel
deriving DecidableEq, Repr

/-- What decoding a word gives: exactly one command, or the reason it is none (R68). -/
inductive Decoded where
  | command (i : Instr)
  | illegal (why : Illegal)
deriving DecidableEq, Repr

/-- The nine formats of R62. -/
inductive Format where
  | n | p | q | c | a | o | u | b | i
deriving DecidableEq, Repr

/-- The encoding of an orientation (R10). -/
def Orientation.code : Orientation → BitVec 2
  | .up => 0
  | .right => 1
  | .down => 2
  | .left => 3

/-- The orientation a 2-bit field names; all four values are legal (R10, R63). -/
def orientationOfCode (v : BitVec 2) : Orientation :=
  if v = 0 then .up else if v = 1 then .right else if v = 2 then .down else .left

/-! ## The fields of a word (R62, R63) -/

def opField (w : Word) : BitVec 5 := w.extractLsb' 27 5
def xField (w : Word) : Nat := (w.extractLsb' 23 4).toNat
def yField (w : Word) : Nat := (w.extractLsb' 19 4).toNat
def colorField (w : Word) : Colour := w.extractLsb' 0 16
def degField (w : Word) : Int := (w.extractLsb' 0 16).toInt
def orientField (w : Word) : Orientation := orientationOfCode (w.extractLsb' 0 2)
def cpField (w : Word) : Codepoint := w.extractLsb' 0 21
/-- `r` of format B. -/
def byte0Field (w : Word) : Byte := w.extractLsb' 0 8
/-- `g` of format B. -/
def byte1Field (w : Word) : Byte := w.extractLsb' 8 8
/-- `b` of format B and `v` of format I. -/
def byte2Field (w : Word) : Byte := w.extractLsb' 16 8
def selField (w : Word) : BitVec 3 := w.extractLsb' 24 3

/-- The bits a format reserves; they must be zero (R62, R66). -/
def reservedMask : Format → Word
  | .n => 0x07FFFFFF
  | .p => 0x00070000
  | .q => 0x0007FFFF
  | .c => 0x07FF0000
  | .a => 0x07FF0000
  | .o => 0x07FFFFFC
  | .u => 0x07E00000
  | .b => 0x07000000
  | .i => 0x00000000

/-- The format of each opcode of R64; none for the reserved opcodes (R65). -/
def formatOf (op : Nat) : Option Format :=
  match op with
  | 0x00 => some .n
  | 0x01 => some .p
  | 0x02 => some .q
  | 0x03 => some .p
  | 0x04 => some .q
  | 0x05 => some .c
  | 0x06 => some .n
  | 0x07 => some .n
  | 0x08 => some .n
  | 0x09 => some .n
  | 0x0A => some .n
  | 0x0B => some .a
  | 0x0C => some .o
  | 0x0D => some .u
  | 0x0E => some .c
  | 0x0F => some .n
  | 0x10 => some .n
  | 0x11 => some .n
  | 0x12 => some .n
  | 0x13 => some .n
  | 0x14 => some .b
  | 0x15 => some .c
  | 0x16 => some .i
  | _ => none

/-- The insertion that `sel` names; 3..7 are illegal (R63, R67). -/
def insertOf (w : Word) : Decoded :=
  match (selField w).toNat with
  | 0 => .command (.insr (colorField w) (byte2Field w))
  | 1 => .command (.insg (colorField w) (byte2Field w))
  | 2 => .command (.insb (colorField w) (byte2Field w))
  | _ => .illegal .reservedSel

/-- The command of R64's row for an opcode, its operands read by the row's format (R62, R63). -/
def commandOf (op : Nat) (w : Word) : Decoded :=
  match op with
  | 0x00 => .command .nop
  | 0x01 => .command (.setpx (xField w) (yField w) (colorField w))
  | 0x02 => .command (.getpx (xField w) (yField w))
  | 0x03 => .command (.setpxa (xField w) (yField w) (colorField w))
  | 0x04 => .command (.getpxa (xField w) (yField w))
  | 0x05 => .command (.setall (colorField w))
  | 0x06 => .command .setdata
  | 0x07 => .command .dataclr
  | 0x08 => .command .transpose
  | 0x09 => .command .reflv
  | 0x0A => .command .reflh
  | 0x0B => .command (.rotate (degField w))
  | 0x0C => .command (.setorient (orientField w))
  | 0x0D => .command (.showchar (cpField w))
  | 0x0E => .command (.shiftc (colorField w))
  | 0x0F => .command .shifts
  | 0x10 => .command .scroll
  | 0x11 => .command .strclr
  | 0x12 => .command .clrerr
  | 0x13 => .command .flush
  | 0x14 => .command (.pack (byte0Field w) (byte1Field w) (byte2Field w))
  | 0x15 => .command (.unpack (colorField w))
  | 0x16 => insertOf w
  | _ => .illegal .reservedOpcode

/-- Decode a CMD word in the order of R70: opcode, reserved bits, `sel`. -/
def decode (w : Word) : Decoded :=
  match formatOf (opField w).toNat with
  | none => .illegal .reservedOpcode
  | some f => if w &&& reservedMask f = 0 then commandOf (opField w).toNat w else .illegal .reservedBits

/-! ## The encoder: the layouts of R62, high field first -/

def encN (op : BitVec 5) : Word := op ++ 0#27
def encP (op : BitVec 5) (x y : Nat) (c : Colour) : Word := op ++ BitVec.ofNat 4 x ++ BitVec.ofNat 4 y ++ 0#3 ++ c
def encQ (op : BitVec 5) (x y : Nat) : Word := op ++ BitVec.ofNat 4 x ++ BitVec.ofNat 4 y ++ 0#19
def encC (op : BitVec 5) (c : Colour) : Word := op ++ 0#11 ++ c
def encA (op : BitVec 5) (deg : Int) : Word := op ++ 0#11 ++ BitVec.ofInt 16 deg
def encO (op : BitVec 5) (o : Orientation) : Word := op ++ 0#25 ++ o.code
def encU (op : BitVec 5) (cp : Codepoint) : Word := op ++ 0#6 ++ cp
def encB (op : BitVec 5) (r g b : Byte) : Word := op ++ 0#3 ++ b ++ g ++ r
def encI (op : BitVec 5) (sel : BitVec 3) (v : Byte) (c : Colour) : Word := op ++ sel ++ v ++ c

/-- The word of a command, its opcode and format from R64. -/
def encode : Instr → Word
  | .nop => encN 0x00
  | .setpx x y c => encP 0x01 x y c
  | .getpx x y => encQ 0x02 x y
  | .setpxa x y c => encP 0x03 x y c
  | .getpxa x y => encQ 0x04 x y
  | .setall c => encC 0x05 c
  | .setdata => encN 0x06
  | .dataclr => encN 0x07
  | .transpose => encN 0x08
  | .reflv => encN 0x09
  | .reflh => encN 0x0A
  | .rotate deg => encA 0x0B deg
  | .setorient o => encO 0x0C o
  | .showchar cp => encU 0x0D cp
  | .shiftc c => encC 0x0E c
  | .shifts => encN 0x0F
  | .scroll => encN 0x10
  | .strclr => encN 0x11
  | .clrerr => encN 0x12
  | .flush => encN 0x13
  | .pack r g b => encB 0x14 r g b
  | .unpack c => encC 0x15 c
  | .insr c v => encI 0x16 0 v c
  | .insg c v => encI 0x16 1 v c
  | .insb c v => encI 0x16 2 v c

/-- The mnemonic of a command (R64, R72). -/
def mnemonic : Instr → String
  | .nop => "NOP"
  | .setpx _ _ _ => "SETPX"
  | .getpx _ _ => "GETPX"
  | .setpxa _ _ _ => "SETPXA"
  | .getpxa _ _ => "GETPXA"
  | .setall _ => "SETALL"
  | .setdata => "SETDATA"
  | .dataclr => "DATACLR"
  | .transpose => "TRANSPOSE"
  | .reflv => "REFLV"
  | .reflh => "REFLH"
  | .rotate _ => "ROTATE"
  | .setorient _ => "SETORIENT"
  | .showchar _ => "SHOWCHAR"
  | .shiftc _ => "SHIFTC"
  | .shifts => "SHIFTS"
  | .scroll => "SCROLL"
  | .strclr => "STRCLR"
  | .clrerr => "CLRERR"
  | .flush => "FLUSH"
  | .pack _ _ _ => "PACK"
  | .unpack _ => "UNPACK"
  | .insr _ _ => "INSR"
  | .insg _ _ => "INSG"
  | .insb _ _ => "INSB"

/-- A row of the opcode table: mnemonic, match and mask. -/
structure OpcodeRow where
  name : String
  bits : Word
  mask : Word
deriving DecidableEq, Repr

/-- The opcode table's rows, first half (R64; the match and mask of each instruction's rule). -/
def opcodeRowsLow : List OpcodeRow := [
  ⟨"NOP", 0x00000000, 0xFFFFFFFF⟩,
  ⟨"SETPX", 0x08000000, 0xF8070000⟩,
  ⟨"GETPX", 0x10000000, 0xF807FFFF⟩,
  ⟨"SETPXA", 0x18000000, 0xF8070000⟩,
  ⟨"GETPXA", 0x20000000, 0xF807FFFF⟩,
  ⟨"SETALL", 0x28000000, 0xFFFF0000⟩,
  ⟨"SETDATA", 0x30000000, 0xFFFFFFFF⟩,
  ⟨"DATACLR", 0x38000000, 0xFFFFFFFF⟩,
  ⟨"TRANSPOSE", 0x40000000, 0xFFFFFFFF⟩,
  ⟨"REFLV", 0x48000000, 0xFFFFFFFF⟩,
  ⟨"REFLH", 0x50000000, 0xFFFFFFFF⟩,
  ⟨"ROTATE", 0x58000000, 0xFFFF0000⟩,
  ⟨"SETORIENT", 0x60000000, 0xFFFFFFFC⟩]

/-- The opcode table's rows, second half. -/
def opcodeRowsHigh : List OpcodeRow := [
  ⟨"SHOWCHAR", 0x68000000, 0xFFE00000⟩,
  ⟨"SHIFTC", 0x70000000, 0xFFFF0000⟩,
  ⟨"SHIFTS", 0x78000000, 0xFFFFFFFF⟩,
  ⟨"SCROLL", 0x80000000, 0xFFFFFFFF⟩,
  ⟨"STRCLR", 0x88000000, 0xFFFFFFFF⟩,
  ⟨"CLRERR", 0x90000000, 0xFFFFFFFF⟩,
  ⟨"FLUSH", 0x98000000, 0xFFFFFFFF⟩,
  ⟨"PACK", 0xA0000000, 0xFF000000⟩,
  ⟨"UNPACK", 0xA8000000, 0xFFFF0000⟩,
  ⟨"INSR", 0xB0000000, 0xFF000000⟩,
  ⟨"INSG", 0xB1000000, 0xFF000000⟩,
  ⟨"INSB", 0xB2000000, 0xFF000000⟩]

/-- The rows a word matches. -/
def rowsOf (w : Word) : List OpcodeRow :=
  (opcodeRowsLow ++ opcodeRowsHigh).filter fun r => w &&& r.mask == r.bits

/-- An assembler packs the operands and rejects one that does not fit its field (R72). -/
def assemble (i : Instr) : Option Word :=
  if WellFormed i then some (encode i) else none

/-- The command in a word, if it is one. -/
def Decoded.toOption : Decoded → Option Instr
  | .command i => some i
  | .illegal _ => none

/-- The decoder on an opcode-table row's bits: a command is one 32-bit word, so the bits above `nbits` are zero and
nothing else is to be laid out (R61, R69). -/
def decodeTableWord (nbits w : Nat) : Option Instr :=
  (decode (BitVec.ofNat 32 (w % 2 ^ nbits))).toOption

end Sys2Proof
end

