-- ==== Sys2Proof/Config.lean ====
section
/-! DEFINITION. What an implementation fixes (spec/00_scope.md R6): the font, the palette, the capacity of the string
buffer and the length of a tick. An OPEN parameter is a constant without a body, so no proof can see its value. -/

namespace Sys2Proof

/-- A glyph: eight row bytes, row 0 at the top, bit 0 the leftmost column (R114). -/
abbrev Glyph := Vector Byte 8

namespace Config

/-- The default of STRCAP, the capacity of the string buffer in codepoints (R6, D20). A machine's own STRCAP is an
argument of its reset state (`Machine.State.resetWith`): notes/assumptions/1.md. -/
def strcap : Nat := 256

/-- What STRBUF answers beyond its STRCAP entries, which no run reads: a free value. Safe: notes/assumptions/20.md. -/
opaque outsideStrbuf : Nat → Codepoint

/-- The glyph of U+2598, the one glyph the spec fixes (R116). -/
def boxTopLeft : Glyph := #v[0x0F, 0x0F, 0x0F, 0x0F, 0x00, 0x00, 0x00, 0x00]

/-- FONT_RANGES and FONT_ROM with the constraints the spec puts on them (R112, R114–R116). The field values given
here only show that the constraints can be met; `font` below is not known to have them. -/
structure Font where
  /-- `lo_j`. -/
  lo : Fin 7 → Codepoint := fun j => if j = 3 then 0x2598 else BitVec.ofNat 21 j.val
  /-- `hi_j`. -/
  hi : Fin 7 → Codepoint := fun j => if j = 3 then 0x2598 else BitVec.ofNat 21 j.val
  /-- `FONT_ROM(j, cp)`, read only for `lo_j <= cp <= hi_j`. -/
  rom : Fin 7 → Codepoint → Glyph := fun _ _ => boxTopLeft
  /-- `lo_j <= hi_j` (R112). -/
  ordered : ∀ j, lo j ≤ hi j := by decide
  /-- The ranges are pairwise disjoint (R115(a)). -/
  disjoint : ∀ j k, j ≠ k → hi j < lo k ∨ hi k < lo j := by decide
  /-- U+2598 lies in the block-elements range (R115(b)). -/
  box_mem : lo 3 ≤ 0x2598 ∧ 0x2598 ≤ hi 3 := by decide
  /-- U+0401 lies in no range (R115(c)). -/
  io_not_mem : ∀ j, ¬ (lo j ≤ 0x0401 ∧ 0x0401 ≤ hi j) := by decide
  /-- Every range lies inside the Unicode scalar values (R12, R115(d)). -/
  scalar : ∀ j, hi j ≤ 0xD7FF ∨ (0xE000 ≤ lo j ∧ hi j ≤ 0x10FFFF) := by decide
  /-- The glyph of U+2598 (R116). -/
  box_rows : rom 3 0x2598 = boxTopLeft := by decide
deriving Inhabited

/-- The font the block holds as a ROM (R31, R111): OPEN but for its constraints. Safe: notes/assumptions/2.md. -/
opaque font : Font

/-- The palette's names (R82). -/
inductive ColourName where
  | red | green | blue | white | black | brown | cyan | magenta | yellow | purple | orange | gray | lightGray | darkGray
deriving DecidableEq, Repr

/-- The thirteen palette values the spec leaves OPEN (R6, R82). Safe: notes/assumptions/3.md. -/
opaque freePalette : ColourName → Colour

/-- PALETTE (R6, R82). No command reads it; host programs do. -/
def palette : ColourName → Colour
  | .red => 0xF800
  | .green => freePalette .green
  | .blue => freePalette .blue
  | .white => freePalette .white
  | .black => freePalette .black
  | .brown => freePalette .brown
  | .cyan => freePalette .cyan
  | .magenta => freePalette .magenta
  | .yellow => freePalette .yellow
  | .purple => freePalette .purple
  | .orange => freePalette .orange
  | .gray => freePalette .gray
  | .lightGray => freePalette .lightGray
  | .darkGray => freePalette .darkGray

/-- TICK, the length of one engine tick in seconds: OPEN, and no rule reads it (R6, R173).
Safe: notes/assumptions/4.md. -/
opaque tickSeconds : Rat

end Config
end Sys2Proof
end

