-- ==== Sys2Proof/Machine/State.lean ====
section
/-! DEFINITION. The state of the block, of the sink beside it and of what the outside does next, and the state right
after reset (spec/10_state.md R15–R33, spec/70_reset_and_hazards.md R161). -/

namespace Sys2Proof.Machine

/-- The 64 cells in native order, also one frame (R17, R54). -/
abbrev Frame := Vector Colour 64

/-- A glyph blob in logical coordinates, `G[y][x]` (R29, R118). -/
abbrev Blob := Vector (Vector Colour 8) 8

/-- Bytes by address, in one canonical form (`Memory.wf`). Here it holds the device sink's region (R57). -/
abbrev Memory := List Host.Cell

/-- The error codes of STATUS.ERR; codes 7–15 are never written (R26, R145). -/
inductive ErrCode where
  | none | illegal | coord | length | busy | strovf | angle
deriving DecidableEq, Repr

/-- The phase of the scroll sequencer (R29). -/
inductive Phase where
  | idle | step | wait
deriving DecidableEq, Repr

/-- The scroll sequencer SEQ (R29). -/
structure Seq where
  phase : Phase
  /-- An index in STRBUF, below STRLEN while a scroll runs (`Inv`). -/
  i : Nat
  c : Fin 8
  w : Ticks
  g : Blob
  fgL : Colour
  bgL : Colour
  dL : Ticks
deriving DecidableEq, Repr

/-- The sink collaborators that can be attached (R57, R58). -/
inductive SinkKind where
  | device | test
deriving DecidableEq, Repr

/-- Which sink is attached (R54). -/
inductive Sink where
  | unattached | attached (k : SinkKind)
deriving DecidableEq, Repr

/-- What the outside can do to the block, one atomic step each (R15, R39, R50, R161, R165). -/
inductive Input where
  /-- The host writes a port word (R39). -/
  | portWrite (addr : PortAddr) (v : Word)
  /-- The host reads a port word (R39). -/
  | portRead (addr : PortAddr)
  /-- The engine runs one tick (R133). -/
  | tick
  /-- The reset input (R161). -/
  | reset
  /-- A sink is attached (R165). -/
  | attach (k : SinkKind)
deriving DecidableEq, Repr

/-- Why a step stops with a fault. There is no such reason: the one fault the spec names, an unsupported angle, has a
stated effect (FAULT = 1) and is a next state (R149, R150). Safe: notes/assumptions/12.md. -/
inductive Fault where
deriving DecidableEq, Repr

/-- Why a step has no meaning. -/
inductive Refusal where
  /-- Raised by an arm of `exec` whose command has no meaning yet; safe. No arm raises it now. -/
  | notModelled (mnemonic : String)
  /-- Raised by attaching a sink where one is attached: "opening the same device twice is explicitly documented as
  unsupported" (R159, U2). Safe: the run stops. -/
  | sinkAlreadyAttached
deriving DecidableEq, Repr

/-- The whole machine: the block (R17–R29), its output stream (R33), the sink's side (R57, R58), and the model's own
`inputs` and `replies` (notes/assumptions/5.md, 10.md). -/
structure State where
  /-- fb[0..63], native layout (R17). -/
  fb : Frame
  /-- ORIENT (R18). -/
  orient : Orientation
  /-- FG[15:0]; bits [31:16] do not exist (R19). -/
  fg : Colour
  /-- BG[15:0] (R20). -/
  bg : Colour
  /-- DELAY (R21). -/
  delay : Word
  /-- RESULT (R22). -/
  result : Word
  /-- STAGE[0..63] (R23). -/
  stage : Vector Colour 64
  /-- SCNT, 0..64 (R23). -/
  scnt : Fin 65
  /-- SOVF (R23). -/
  sovf : Bool
  /-- STRCAP, an argument of the model: fixed for the machine, and no step changes it (R6; notes/assumptions/1.md). -/
  strcap : Nat
  /-- STRBUF[0..STRCAP-1], a list of STRCAP entries (R24, `Inv`). -/
  strbuf : List Codepoint
  /-- STRLEN, 0..STRCAP (R24, `Inv`). -/
  strlen : Nat
  /-- STATUS.ERR (R26). -/
  err : ErrCode
  /-- STATUS.FAULT (R28). -/
  fault : Bool
  /-- The scroll sequencer (R29). -/
  seq : Seq
  /-- The frames emitted so far, oldest first (R33, R54). -/
  frames : List Frame
  /-- Which sink is attached (R54). -/
  sink : Sink
  /-- The device sink's 128-byte region (R57). -/
  region : Memory
  /-- The frames the test sink has received, oldest first (R58). -/
  received : List Frame
  /-- What the outside does next, first first: the model's own field. -/
  inputs : List Input
  /-- The words that port reads returned to the host, oldest first: the model's own field. -/
  replies : List Word
deriving DecidableEq, Repr

/-- The sequencer right after reset: IDLE (R161). The other fields are unspecified and unread while IDLE; zero is a
DESIGN CHOICE, notes/assumptions/7.md. -/
def Seq.reset : Seq where
  phase := .idle
  i := 0
  c := 0
  w := 0
  g := Vector.replicate 8 (Vector.replicate 8 0)
  fgL := 0
  bgL := 0
  dL := 0

/-- The state right after the first reset of a block whose string buffer holds `strcap` codepoints (R6, R161, R162). STAGE and STRBUF are unspecified there; zero is a DESIGN
CHOICE, notes/assumptions/7.md. No sink is attached yet and nothing is pending: notes/assumptions/6.md, 8.md. -/
def State.resetWith (strcap : Nat) : State where
  fb := Vector.replicate 64 0
  orient := .up
  fg := 0
  bg := 0
  delay := 0
  result := 0
  stage := Vector.replicate 64 0
  scnt := 0
  sovf := false
  strcap := strcap
  strbuf := List.replicate strcap 0
  strlen := 0
  err := .none
  fault := false
  seq := Seq.reset
  frames := []
  sink := .unattached
  region := []
  received := []
  inputs := []
  replies := []

/-- The state right after the first reset, STRCAP at its default (R6, D20, R161). -/
def State.reset : State := State.resetWith Config.strcap

end Sys2Proof.Machine
end

