-- ==== Sys2Proof/Machine/Flags.lean ====
section
/-! DEFINITION. STATUS and its fields (spec/10_state.md R25–R28). No command computes a flag from a result (R30). -/

namespace Sys2Proof.Machine

/-- The 4-bit code of STATUS.ERR (R145). -/
def ErrCode.code : ErrCode → BitVec 4
  | .none => 0
  | .illegal => 1
  | .coord => 2
  | .length => 3
  | .busy => 4
  | .strovf => 5
  | .angle => 6

/-- BUSY: the sequencer's phase is not IDLE (R27). -/
def State.busy (s : State) : Bool :=
  match s.seq.phase with
  | .idle => false
  | .step => true
  | .wait => true

/-- STATUS, its fields from bit 31 down to bit 0; the reserved fields read 0 (R25). -/
def statusWord (s : State) : Word :=
  0#8 ++ BitVec.ofBool s.sovf ++ BitVec.ofNat 7 s.scnt.val ++ 0#6 ++ s.orient.code ++ s.err.code ++ 0#2
    ++ BitVec.ofBool s.fault ++ BitVec.ofBool s.busy

end Sys2Proof.Machine
end

