-- ==== Sys2Proof/Machine/Operands.lean ====
section
/-! DEFINITION. Operand forms: the orientation mux and the coordinates it maps, colour components, quarter turns
(spec/40_color.md R76, spec/41_pixel_access.md R84, spec/42_transforms.md R104–R106). -/

namespace Sys2Proof.Machine

/-! ## Coordinates and the mux -/

/-- The native index of a native (x, y): `8*y + x` (R9). -/
def cellIdx (x y : Fin 8) : Fin 64 := ⟨8 * y.val + x.val, by omega⟩

/-- `7 - x`. -/
def mirror (x : Fin 8) : Fin 8 := ⟨7 - x.val, by omega⟩

/-- The column of a native index. -/
def colOf (i : Fin 64) : Fin 8 := ⟨i.val % 8, by omega⟩

/-- The row of a native index. -/
def rowOf (i : Fin 64) : Fin 8 := ⟨i.val / 8, by omega⟩

/-- The mux `idx(o, x, y)`, the four formulas of R84 with N = 8. -/
def idx (o : Orientation) (x y : Fin 8) : Fin 64 :=
  match o with
  | .up => ⟨y.val * 8 + x.val, by omega⟩
  | .right => ⟨x.val * 8 + (8 - y.val - 1), by omega⟩
  | .down => ⟨(8 - y.val - 1) * 8 + (8 - x.val - 1), by omega⟩
  | .left => ⟨(8 - x.val - 1) * 8 + y.val, by omega⟩

/-- The logical (x, y) that the mux maps to a native index (the mux is a bijection, R90). -/
def logicalOf (o : Orientation) (i : Fin 64) : Fin 8 × Fin 8 :=
  match o with
  | .up => (colOf i, rowOf i)
  | .right => (rowOf i, mirror (colOf i))
  | .down => (mirror (colOf i), mirror (rowOf i))
  | .left => (mirror (rowOf i), colOf i)

/-! ## Colour components (R76) -/

def red (c : Colour) : BitVec 5 := c.extractLsb' 11 5
def green (c : Colour) : BitVec 6 := c.extractLsb' 5 6
def blue (c : Colour) : BitVec 5 := c.extractLsb' 0 5

/-- `pack(r, g, b)`: each component byte masked to its field, not clamped (R76). -/
def packColour (r g b : Byte) : Colour := r.extractLsb' 0 5 ++ g.extractLsb' 0 6 ++ b.extractLsb' 0 5

/-- The layout of UNPACK's result (R78). -/
def unpackColour (c : Colour) : Word :=
  (red c).zeroExtend 32 ||| (green c).zeroExtend 32 <<< 8 ||| (blue c).zeroExtend 32 <<< 16

/-- The colour with its red field replaced (R79). -/
def insertRed (c : Colour) (v : Byte) : Colour := (c &&& 0x07FF) ||| ((v.extractLsb' 0 5).zeroExtend 16 <<< 11)

/-- The colour with its green field replaced (R80). -/
def insertGreen (c : Colour) (v : Byte) : Colour := (c &&& 0xF81F) ||| ((v.extractLsb' 0 6).zeroExtend 16 <<< 5)

/-- The colour with its blue field replaced (R81). -/
def insertBlue (c : Colour) (v : Byte) : Colour := (c &&& 0xFFE0) ||| (v.extractLsb' 0 5).zeroExtend 16

/-! ## Angles and quarter turns -/

/-- The quarter turns of an angle: `deg mod 360` over 90 where that is whole, none for an unsupported angle (R104). -/
def quarterTurns (deg : Int) : Option (Fin 4) :=
  if (deg % 360) % 90 = 0 then some ⟨((deg % 360) / 90).toNat % 4, by omega⟩ else none

/-- The quarter turns that re-render the buffer from one orientation to another: `(old - new) mod 4` (R106). -/
def reframeTurns (old new : Orientation) : Fin 4 := (old.code - new.code).toFin

/-- SCROLL's per-column delay, `DELAY >> 3` (R132). -/
def columnDelay (delay : Word) : Ticks := delay.extractLsb' 3 29

end Sys2Proof.Machine
end

