-- ==== Sys2Proof/Machine/Ops.lean ====
section
/-! DEFINITION. The shared operations: the byte memory of the device region, building and shifting the framebuffer,
emitting a frame, the error and fault procedures with the return from one, the guard of every command and the two
fill buffers. -/

namespace Sys2Proof.Machine

/-- `fb[i]`, and `STAGE[i]` of the staging buffer, which has the same shape (R8, R23). -/
def cell (b : Frame) (i : Fin 64) : Colour := b[i.val]

/-- `STRBUF[i]` (R24). -/
def strAt (b : List Codepoint) (i : Nat) : Codepoint := b.getD i (Config.outsideStrbuf i)

/-! ## Byte memory (the device region, R57) -/

/-- What an address that is not listed reads as: the region is zeroed before the first frame (R57). -/
def Memory.unlisted : Byte := 0

/-- Read one byte. -/
def Memory.read : Memory → Nat → Byte
  | [], _ => Memory.unlisted
  | (b, v) :: m, a => if a = b then v else Memory.read m a

/-- Write one byte; the form stays canonical, so writing what an unlisted address reads as removes the entry. -/
def Memory.write : Memory → Nat → Byte → Memory
  | [], a, v => if v = Memory.unlisted then [] else [(a, v)]
  | (b, u) :: m, a, v =>
    if a < b then (if v = Memory.unlisted then (b, u) :: m else (a, v) :: (b, u) :: m)
    else if a = b then (if v = Memory.unlisted then m else (a, v) :: m)
    else (b, u) :: Memory.write m a v

/-- Write bytes at rising addresses. -/
def Memory.writeBytes (m : Memory) (a : Nat) : List Byte → Memory
  | [] => m
  | v :: vs => Memory.writeBytes (Memory.write m a v) (a + 1) vs

/-- Every listed address is above `lo`'s bound, addresses strictly rise, and no entry equals what an unlisted address
reads as. -/
def Memory.wfFrom (lo : Nat) : Memory → Bool
  | [] => true
  | (b, v) :: m => decide (lo ≤ b) && decide (v ≠ Memory.unlisted) && Memory.wfFrom (b + 1) m

/-- The canonical form. -/
def Memory.wf (m : Memory) : Bool := Memory.wfFrom 0 m

/-- Byte `k` of the 128-byte image of a frame, little-endian (R46). -/
def imageByte (b : Frame) (k : Fin 128) : Byte :=
  let c := cell b ⟨k.val / 2, by omega⟩
  if k.val % 2 = 0 then c.extractLsb' 0 8 else c.extractLsb' 8 8

/-- The 128-byte image of a frame (R46). -/
def imageBytes (b : Frame) : List Byte := List.ofFn (imageByte b)

/-! ## The framebuffer -/

/-- `A(x, y)`: the cell at native (x, y) (R8). -/
def cellAt (b : Frame) (x y : Fin 8) : Colour := cell b (cellIdx x y)

/-- The frame with one cell replaced. -/
def setCell (b : Frame) (i : Fin 64) (c : Colour) : Frame := b.set i.val c i.isLt

/-- The frame whose native cell (x, y) is `f x y`. -/
def buildNative (f : Fin 8 → Fin 8 → Colour) : Frame := Vector.ofFn fun i => f (colOf i) (rowOf i)

/-- The frame whose logical cell (x, y) is `f x y`: what writing every `fb[idx(o, x, y)]` leaves, each index being
written once (R90). -/
def buildLogical (o : Orientation) (f : Fin 8 → Fin 8 → Colour) : Frame :=
  Vector.ofFn fun i => f (logicalOf o i).1 (logicalOf o i).2

/-- `shiftIn(col)`: every logical column moves one to the left and `col` enters as logical column 7 (R123). -/
def shiftIn (o : Orientation) (col : Fin 8 → Colour) (old : Frame) : Frame :=
  buildLogical o fun x y => if h : x.val < 7 then cell old (idx o ⟨x.val + 1, by omega⟩ y) else col y

/-! ## Emitting a frame -/

/-- `emit Frame()`: append an exact copy of fb to the output stream, and hand it to the sink that is attached. The
device sink writes the 128-byte image to its region; the test sink receives the 64 cells (R54, R57, R58). -/
def emit (s : State) : State :=
  { s with
    frames := s.frames ++ [s.fb]
    region := match s.sink with
      | .unattached => s.region
      | .attached .device => Memory.writeBytes s.region 0 (imageBytes s.fb)
      | .attached .test => s.region
    received := match s.sink with
      | .unattached => s.received
      | .attached .device => s.received
      | .attached .test => s.received ++ [s.fb] }

/-- Replace the framebuffer and emit it: the end of every mutating command (R55). -/
def mutate (b : Frame) (s : State) : State := emit { s with fb := b }

/-! ## Taking an error or the fault, and the return -/

/-- `raise Error(code)`: the code goes to STATUS.ERR and nothing else changes (R147, R153). -/
def raiseError (c : ErrCode) (s : State) : State := { s with err := c }

/-- `raise Fault(code)`: the code goes to STATUS.ERR and FAULT is set (R149). -/
def raiseFault (c : ErrCode) (s : State) : State := { s with err := c, fault := true }

/-- The return from an error: ERR becomes NONE and nothing else is restored (R142, R154). -/
def clearError (s : State) : State := { s with err := .none }

/-- What every host write to CMD meets first: while FAULT = 1 it is ignored, while BUSY = 1 it raises BUSY, and
otherwise its body runs (R70, R150, R151). -/
def guarded (s : State) (body : State → State) : State :=
  if s.fault then s else if s.busy then raiseError .busy s else body s

/-- A command: its body behind the guard, always a next state (R50). -/
def command (s : State) (body : State → State) : Host.Outcome State Fault Refusal := .next (guarded s body)

/-- The coordinate check of the pixel commands (R85–R88). -/
def withCoord (x y : Nat) (s : State) (body : Fin 8 → Fin 8 → State → State) : State :=
  if h : x < 8 ∧ y < 8 then body ⟨x, h.1⟩ ⟨y, h.2⟩ s else raiseError .coord s

/-- Write a 16-bit value to RESULT, zero-extended (R22). -/
def putResult (c : Colour) (s : State) : State := { s with result := c.zeroExtend 32 }

/-! ## The fill buffers: staging and string -/

/-- Append to a buffer of capacity `n` that holds `cnt` entries; none where it is full (R94). -/
def pushCell {α : Type} {n : Nat} (cells : Vector α n) (cnt : Fin (n + 1)) (v : α) :
    Option (Vector α n × Fin (n + 1)) :=
  if h : cnt.val < n then some (cells.set cnt.val v h, ⟨cnt.val + 1, by omega⟩) else none

/-- Append a codepoint to the string buffer; STROVF where it is full (R129). -/
def pushCodepoint (cp : Codepoint) (s : State) : State :=
  if s.strlen = s.strcap then raiseError .strovf s
  else { s with strbuf := s.strbuf.set s.strlen cp, strlen := s.strlen + 1 }

/-- Empty the staging buffer; STAGE keeps its contents (R96). -/
def clearStage (s : State) : State := { s with scnt := 0, sovf := false }

/-- Consume the staging buffer where it holds exactly `n` pixels and none was dropped. It is emptied either way, and
otherwise LENGTH is raised after that (R95, R126, R147). -/
def commitStage (n : Nat) (s : State) (body : State → State) : State :=
  if s.scnt.val = n ∧ s.sovf = false then body (clearStage s) else raiseError .length (clearStage s)

end Sys2Proof.Machine
end

