-- ==== Sys2Proof/Machine/Color.lean ====
section
/-! DEFINITION. The pixel packer's commands; they write RESULT only (spec/40_color.md). -/

namespace Sys2Proof.Machine

/-- PACK (R77). -/
def execPack (r g b : Byte) (s : State) : Host.Outcome State Fault Refusal :=
  command s (putResult (packColour r g b))

/-- UNPACK (R78). -/
def execUnpack (color : Colour) (s : State) : Host.Outcome State Fault Refusal :=
  command s fun s => { s with result := unpackColour color }

/-- INSR (R79). -/
def execInsr (color : Colour) (v : Byte) (s : State) : Host.Outcome State Fault Refusal :=
  command s (putResult (insertRed color v))

/-- INSG (R80). -/
def execInsg (color : Colour) (v : Byte) (s : State) : Host.Outcome State Fault Refusal :=
  command s (putResult (insertGreen color v))

/-- INSB (R81). -/
def execInsb (color : Colour) (v : Byte) (s : State) : Host.Outcome State Fault Refusal :=
  command s (putResult (insertBlue color v))

end Sys2Proof.Machine
end

