-- ==== Sys2Proof/Machine/Control.lean ====
section
/-! DEFINITION. NOP, CLRERR and FLUSH (spec/45_control.md). -/

namespace Sys2Proof.Machine

/-- NOP: no effect (R141). -/
def execNop (s : State) : Host.Outcome State Fault Refusal := command s fun s => s

/-- CLRERR: STATUS.ERR becomes 0; FAULT is not cleared (R142). -/
def execClrerr (s : State) : Host.Outcome State Fault Refusal := command s clearError

/-- FLUSH: emit a frame without a mutation (R143). -/
def execFlush (s : State) : Host.Outcome State Fault Refusal := command s emit

end Sys2Proof.Machine
end

