-- ==== Sys2Proof/Machine/Font.lean ====
section
/-! DEFINITION. The glyph lookup, the rasterizer and SHOWCHAR (spec/43_font.md). -/

namespace Sys2Proof.Machine

/-- The font table whose range holds a codepoint (R112, R117). -/
def tableOf (cp : Codepoint) : Option (Fin 7) :=
  (List.finRange 7).find? fun j => decide (Config.font.lo j ≤ cp) && decide (cp ≤ Config.font.hi j)

/-- A codepoint is a Unicode scalar value (R12). -/
def isScalar (cp : Codepoint) : Bool := decide (cp ≤ 0xD7FF) || (decide (0xE000 ≤ cp) && decide (cp ≤ 0x10FFFF))

/-- `glyphRows(cp)` (R117). The cases the font's constraints settle whatever the OPEN font is (R115, R116) come first,
so that they can be evaluated; they agree with the lookup, since `Config.font` carries those constraints. -/
def glyphRows (cp : Codepoint) : Option Glyph :=
  if cp = 0x2598 then some Config.boxTopLeft
  else if cp = 0x0401 ∨ isScalar cp = false then none
  else match tableOf cp with
    | some j => some (Config.font.rom j cp)
    | none => none

/-- `raster(cp, fg, bg)[y][x]`: foreground where the glyph's bit is set, background elsewhere and for a codepoint with
no glyph (R118). -/
def rasterCell (cp : Codepoint) (fg bg : Colour) (x y : Fin 8) : Colour :=
  match glyphRows cp with
  | some row => if row[y.val].getLsbD x.val then fg else bg
  | none => bg

/-- The glyph blob, `G[y][x]` (R118). -/
def raster (cp : Codepoint) (fg bg : Colour) : Blob :=
  Vector.ofFn fun y => Vector.ofFn fun x => rasterCell cp fg bg x y

/-- `G[y][x]` (R29). -/
def blobCell (g : Blob) (x y : Fin 8) : Colour := (g[y.val])[x.val]

/-- SHOWCHAR: place the glyph blob, coloured by FG and BG, through the mux (R119). -/
def execShowchar (cp : Codepoint) (s : State) : Host.Outcome State Fault Refusal :=
  command s fun s =>
    mutate (buildLogical s.orient fun x y => blobCell (raster cp s.fg s.bg) x y) s

end Sys2Proof.Machine
end

