-- ==== Sys2Proof/Machine/Pixel.lean ====
section
/-! DEFINITION. Pixel access (spec/41_pixel_access.md). -/

namespace Sys2Proof.Machine

/-- SETPX: write the cell at logical (x, y) (R85). -/
def execSetpx (x y : Nat) (color : Colour) (s : State) : Host.Outcome State Fault Refusal :=
  command s fun s => withCoord x y s fun x y s => mutate (setCell s.fb (idx s.orient x y) color) s

/-- GETPX: read the cell at logical (x, y) into RESULT (R86). -/
def execGetpx (x y : Nat) (s : State) : Host.Outcome State Fault Refusal :=
  command s fun s => withCoord x y s fun x y s => putResult (cell s.fb (idx s.orient x y)) s

/-- SETPXA: write the cell at native (x, y) (R87). -/
def execSetpxa (x y : Nat) (color : Colour) (s : State) : Host.Outcome State Fault Refusal :=
  command s fun s => withCoord x y s fun x y s => mutate (setCell s.fb (cellIdx x y) color) s

/-- GETPXA: read the cell at native (x, y) into RESULT (R88). -/
def execGetpxa (x y : Nat) (s : State) : Host.Outcome State Fault Refusal :=
  command s fun s => withCoord x y s fun x y s => putResult (cellAt s.fb x y) s

/-- SETALL: fill every cell (R89). -/
def execSetall (color : Colour) (s : State) : Host.Outcome State Fault Refusal :=
  command s fun s => mutate (Vector.replicate 64 color) s

/-- SETDATA: commit the 64 staged pixels in native order (R95). -/
def execSetdata (s : State) : Host.Outcome State Fault Refusal :=
  command s fun s => commitStage 64 s fun s => mutate s.stage s

/-- DATACLR: empty the staging buffer (R96). -/
def execDataclr (s : State) : Host.Outcome State Fault Refusal := command s clearStage

end Sys2Proof.Machine
end

