-- ==== Sys2Proof/Machine/Scroll.lean ====
section
/-! DEFINITION. The shift commands, SCROLL and the scroll sequencer's tick (spec/44_scroll.md). -/

namespace Sys2Proof.Machine

/-- SHIFTC: shift left and insert a one-colour column (R125). -/
def execShiftc (color : Colour) (s : State) : Host.Outcome State Fault Refusal :=
  command s fun s => mutate (shiftIn s.orient (fun _ => color) s.fb) s

/-- SHIFTS: shift left and insert the staged column, STAGE[y] for logical row y (R126). -/
def execShifts (s : State) : Host.Outcome State Fault Refusal :=
  command s fun s => commitStage 8 s fun s =>
    mutate (shiftIn s.orient (fun y => cell s.stage ⟨y.val, by omega⟩) s.fb) s

/-- STRCLR: empty the string buffer (R130). -/
def execStrclr (s : State) : Host.Outcome State Fault Refusal := command s fun s => { s with strlen := 0 }

/-- Start the sequencer on the string buffer; an empty string is nothing to do (R132). -/
def startScroll (s : State) : State :=
  if s.strlen = 0 then s
  else
    { s with seq := { s.seq with
        phase := .step
        i := 0
        c := 0
        fgL := s.fg
        bgL := s.bg
        dL := columnDelay s.delay } }

/-- SCROLL: start scrolling; the column steps come with the engine's ticks (R132). -/
def execScroll (s : State) : Host.Outcome State Fault Refusal := command s startScroll

/-- `complete()`: back to IDLE, the string consumed (R135). -/
def completeScroll (s : State) : State := { s with strlen := 0, seq := { s.seq with phase := .idle } }

/-- `advance()`: the next column, the next character, or the end of the scroll (R134). -/
def advanceScroll (s : State) : State :=
  if hc : s.seq.c.val < 7 then
    { s with seq := { s.seq with c := ⟨s.seq.c.val + 1, by omega⟩, phase := .step } }
  else if s.seq.i + 1 < s.strlen then
    { s with seq := { s.seq with i := s.seq.i + 1, c := 0, phase := .step } }
  else completeScroll s

/-- At column 0 the character's glyph blob is rendered in the latched colours (R133). -/
def loadGlyph (s : State) : State :=
  if s.seq.c = 0 then { s with seq := { s.seq with g := raster (strAt s.strbuf s.seq.i) s.seq.fgL s.seq.bgL } } else s

/-- One column step: shift the glyph's column `c` in and emit (R133). -/
def columnStep (s : State) : State :=
  mutate (shiftIn s.orient (fun y => blobCell s.seq.g s.seq.c y) s.fb) s

/-- What follows a column step: go on at once, or wait `dL` ticks (R133). -/
def afterColumn (s : State) : State :=
  if s.seq.dL = 0 then advanceScroll s else { s with seq := { s.seq with w := s.seq.dL, phase := .wait } }

/-- One tick of the delay counter (R133). -/
def waitTick (s : State) : State :=
  if s.seq.w - 1 = 0 then advanceScroll { s with seq := { s.seq with w := s.seq.w - 1 } }
  else { s with seq := { s.seq with w := s.seq.w - 1 } }

/-- One engine tick (R133). -/
def tick (s : State) : State :=
  match s.seq.phase with
  | .idle => s
  | .step => afterColumn (columnStep (loadGlyph s))
  | .wait => waitTick s

end Sys2Proof.Machine
end

