-- ==== Sys2Proof/Machine/Transform.lean ====
section
/-! DEFINITION. Transforms of the native buffer and the change of orientation (spec/42_transforms.md). -/

namespace Sys2Proof.Machine

/-- Swap (x, y) with (y, x) (R100). -/
def transposed (old : Frame) : Frame := buildNative fun x y => cellAt old y x

/-- Mirror left to right (R101). -/
def reflectedV (old : Frame) : Frame := buildNative fun x y => cellAt old (mirror x) y

/-- Mirror top to bottom (R102). -/
def reflectedH (old : Frame) : Frame := buildNative fun x y => cellAt old x (mirror y)

/-- `rot(k, fb)`, composed from the primitives as the source does (R105). -/
def rotated (k : Fin 4) (b : Frame) : Frame :=
  match k with
  | 0 => b
  | 1 => reflectedH (transposed b)
  | 2 => reflectedV (reflectedH b)
  | 3 => reflectedV (transposed b)

/-- TRANSPOSE (R100). -/
def execTranspose (s : State) : Host.Outcome State Fault Refusal := command s fun s => mutate (transposed s.fb) s

/-- REFLV (R101). -/
def execReflv (s : State) : Host.Outcome State Fault Refusal := command s fun s => mutate (reflectedV s.fb) s

/-- REFLH (R102). -/
def execReflh (s : State) : Host.Outcome State Fault Refusal := command s fun s => mutate (reflectedH s.fb) s

/-- ROTATE: rotate the native buffer by a multiple of 90 degrees; any other angle is the fault ANGLE (R104, R149). -/
def execRotate (deg : Int) (s : State) : Host.Outcome State Fault Refusal :=
  command s fun s =>
    match quarterTurns deg with
    | some k => mutate (rotated k s.fb) s
    | none => raiseFault .angle s

/-- SETORIENT: rotate the contents so that every logical cell keeps its value, then change ORIENT (R106). -/
def execSetorient (o : Orientation) (s : State) : Host.Outcome State Fault Refusal :=
  command s fun s => mutate (rotated (reframeTurns s.orient o) s.fb) { s with orient := o }

end Sys2Proof.Machine
end

