-- ==== Sys2Proof/Machine/Dispatch.lean ====
section
/-! DEFINITION. One arm per command, each a call of its meaning. -/

namespace Sys2Proof.Machine

/-- What writing a command's word to CMD does, the guard of R70 included. -/
def exec (i : Instr) (s : State) : Host.Outcome State Fault Refusal :=
  match i with
  | .nop => Sys2Proof.Machine.execNop s
  | .setpx x y color => Sys2Proof.Machine.execSetpx x y color s
  | .getpx x y => Sys2Proof.Machine.execGetpx x y s
  | .setpxa x y color => Sys2Proof.Machine.execSetpxa x y color s
  | .getpxa x y => Sys2Proof.Machine.execGetpxa x y s
  | .setall color => Sys2Proof.Machine.execSetall color s
  | .setdata => Sys2Proof.Machine.execSetdata s
  | .dataclr => Sys2Proof.Machine.execDataclr s
  | .transpose => Sys2Proof.Machine.execTranspose s
  | .reflv => Sys2Proof.Machine.execReflv s
  | .reflh => Sys2Proof.Machine.execReflh s
  | .rotate deg => Sys2Proof.Machine.execRotate deg s
  | .setorient o => Sys2Proof.Machine.execSetorient o s
  | .showchar cp => Sys2Proof.Machine.execShowchar cp s
  | .shiftc color => Sys2Proof.Machine.execShiftc color s
  | .shifts => Sys2Proof.Machine.execShifts s
  | .scroll => Sys2Proof.Machine.execScroll s
  | .strclr => Sys2Proof.Machine.execStrclr s
  | .clrerr => Sys2Proof.Machine.execClrerr s
  | .flush => Sys2Proof.Machine.execFlush s
  | .pack r g b => Sys2Proof.Machine.execPack r g b s
  | .unpack color => Sys2Proof.Machine.execUnpack color s
  | .insr color v => Sys2Proof.Machine.execInsr color v s
  | .insg color v => Sys2Proof.Machine.execInsg color v s
  | .insb color v => Sys2Proof.Machine.execInsb color v s

end Sys2Proof.Machine
end

