-- ==== Sys2Proof/Machine/Port.lean ====
section
/-! DEFINITION. The register port: the map, port reads and writes, reset and attaching a sink (spec/20_memory.md
R38–R45, spec/30_encoding.md R70, R71, spec/70_reset_and_hazards.md R161). -/

namespace Sys2Proof.Machine

/-- The registers of the map (R40). -/
inductive PortReg where
  | cmd | status | result | fg | bg | delay | str | data | strlen
  | fbwin (j : Fin 32)
  | unmapped
deriving DecidableEq, Repr

/-- The byte offset of a word of the port (R38). -/
def byteOffset (a : PortAddr) : Nat := 4 * a.toNat

/-- The register map, by byte offset (R40). -/
def portReg (a : PortAddr) : PortReg :=
  if byteOffset a = 0x000 then .cmd
  else if byteOffset a = 0x004 then .status
  else if byteOffset a = 0x008 then .result
  else if byteOffset a = 0x00C then .fg
  else if byteOffset a = 0x010 then .bg
  else if byteOffset a = 0x014 then .delay
  else if byteOffset a = 0x018 then .str
  else if byteOffset a = 0x01C then .data
  else if byteOffset a = 0x020 then .strlen
  else if h : 0x100 ≤ byteOffset a ∧ byteOffset a ≤ 0x17C then
    .fbwin ⟨(byteOffset a - 0x100) / 4, by omega⟩
  else .unmapped

/-- The word of FBWIN[j]: cell 2j low, cell 2j+1 high (R45). -/
def fbWord (b : Frame) (j : Fin 32) : Word := cell b ⟨2 * j.val + 1, by omega⟩ ++ cell b ⟨2 * j.val, by omega⟩

/-- What a PortRead returns (R40–R42, R45). -/
def portValue (a : PortAddr) (s : State) : Word :=
  match portReg a with
  | .cmd => 0
  | .status => statusWord s
  | .result => s.result
  | .fg => s.fg.zeroExtend 32
  | .bg => s.bg.zeroExtend 32
  | .delay => s.delay
  | .str => 0
  | .data => 0
  | .strlen => BitVec.ofNat 32 s.strlen
  | .fbwin j => fbWord s.fb j
  | .unmapped => 0

/-- A PortRead: the host gets the word, and the block does not change (R44). -/
def portRead (a : PortAddr) (s : State) : State := { s with replies := s.replies ++ [portValue a s] }

/-- A write to STR: append one codepoint (R129). -/
def writeStr (v : Word) (s : State) : State :=
  if s.busy then raiseError .busy s
  else if v.extractLsb' 21 11 ≠ 0 then raiseError .illegal s
  else pushCodepoint (v.extractLsb' 0 21) s

/-- A write to DATA: append one pixel; one too many sets SOVF (R94). -/
def writeData (v : Word) (s : State) : State :=
  if s.busy then raiseError .busy s
  else if v.extractLsb' 16 16 ≠ 0 then raiseError .illegal s
  else match pushCell s.stage s.scnt (v.extractLsb' 0 16) with
    | some (cells, cnt) => { s with stage := cells, scnt := cnt }
    | none => { s with sovf := true }

/-- A write to CMD: run the command the word spells; a word that spells none raises ILLEGAL, after the guard (R70). -/
def writeCmd (w : Word) (s : State) : Host.Outcome State Fault Refusal :=
  match decode w with
  | .command i => exec i s
  | .illegal _ => command s (raiseError .illegal)

/-- A PortWrite. While FAULT = 1 every one is ignored (R150); writes to read-only and unmapped offsets always are
(R41, R43). -/
def portWrite (a : PortAddr) (v : Word) (s : State) : Host.Outcome State Fault Refusal :=
  if s.fault then .next s
  else match portReg a with
    | .cmd => writeCmd v s
    | .status => .next s
    | .result => .next s
    | .fg => .next { s with fg := v.extractLsb' 0 16 }
    | .bg => .next { s with bg := v.extractLsb' 0 16 }
    | .delay => .next { s with delay := v }
    | .str => .next (writeStr v s)
    | .data => .next (writeData v s)
    | .strlen => .next s
    | .fbwin _ => .next s
    | .unmapped => .next s

/-- The reset input: every piece of the block's state takes its reset value; frames already emitted stay and none is
emitted. STRCAP is no register (R6); the sink and the outside's own fields are no state of the block (R161; notes/assumptions/14.md). -/
def hardReset (s : State) : State :=
  { State.resetWith s.strcap with
    frames := s.frames
    sink := s.sink
    region := s.region
    received := s.received
    inputs := s.inputs
    replies := s.replies }

/-- Attach a sink. The device sink's region is zeroed (R57, R165); a second attach is unsupported (R159). -/
def attachSink (k : SinkKind) (s : State) : Host.Outcome State Fault Refusal :=
  match s.sink with
  | .unattached => .next { s with sink := .attached k, region := [], received := [] }
  | .attached _ => .refused .sinkAlreadyAttached

/-- One input, one atomic step (R50). -/
def perform (e : Input) (s : State) : Host.Outcome State Fault Refusal :=
  match e with
  | .portWrite a v => portWrite a v s
  | .portRead a => .next (portRead a s)
  | .tick => .next (tick s)
  | .reset => .next (hardReset s)
  | .attach k => attachSink k s

/-- The outside's next input, taken off the list; with nothing pending the engine ticks (notes/assumptions/5.md). -/
def stepState (s : State) : Host.Outcome State Fault Refusal :=
  match s.inputs with
  | [] => .next (tick s)
  | e :: rest => perform e { s with inputs := rest }

/-- The word number of CMD (R40). -/
def cmdAddr : PortAddr := 0

/-- Put a command word where the next step takes its command: a CMD write at the head of the inputs. -/
def placeWord (s : State) (nbits w : Nat) : State :=
  { s with inputs := .portWrite cmdAddr (BitVec.ofNat 32 (w % 2 ^ nbits)) :: s.inputs }

end Sys2Proof.Machine
end

