-- ==== Sys2Proof/Machine/Step.lean ====
section
/-! DEFINITION. One step of the machine (spec/10_state.md R15, spec/20_memory.md R50), and the placing of a command
word for the host's checks. -/

namespace Sys2Proof.Machine

/-- One step: the next access, tick, reset or attach (R15, R50). -/
def step (s : State) : Host.Outcome State Fault Refusal := stepState s

/-- The state in which the next step writes the word `w` to CMD: the block takes commands from the host, so a word is
placed as the host's next access (R16, R61; notes/assumptions/6.md). -/
def State.withFetchWord (s : State) (nbits w : Nat) : State := placeWord s nbits w

end Sys2Proof.Machine
end

