-- ==== Sys2Proof/Safety.lean ====
section
/-! DEFINITION. What counts as a good state and a good run, in the terms the statements use. -/

namespace Sys2Proof.Machine

/-- A state of a run that has not failed: "a run that reaches FAULT = 1 has failed" (R150). -/
def Safe (s : State) : Prop := s.fault = false

/-- The block takes commands: no fault and no scroll in progress (R70). -/
def Ready (s : State) : Prop := s.fault = false ∧ s.seq.phase = .idle

/-- The invariant of the machine: what relates the pieces of its state. -/
structure Inv (s : State) : Prop where
  /-- FAULT is set exactly with ERR = ANGLE, and ERR stays ANGLE then (R149, R150). -/
  fault_iff_angle : s.fault = true ↔ s.err = .angle
  /-- No scroll runs in the fault state (R150). -/
  fault_idle : s.fault = true → s.seq.phase = .idle
  /-- A running scroll is at a character of the string (R29, R134). -/
  scroll_index : s.seq.phase ≠ .idle → s.seq.i < s.strlen
  /-- STRLEN is at most STRCAP (R24). -/
  string_fits : s.strlen ≤ s.strcap
  /-- STRBUF has STRCAP entries (R24). -/
  string_entries : s.strbuf.length = s.strcap
  /-- STRLEN can be read in 32 bits (R24). -/
  strcap_fits : s.strcap < 2 ^ 32
  /-- While waiting, between one and `dL` ticks are left (R133). -/
  wait_count : s.seq.phase = .wait → 0 < s.seq.w ∧ s.seq.w ≤ s.seq.dL
  /-- Once column 0 has been shifted in, G is the current character's blob in the latched colours (R133). -/
  glyph_loaded : s.seq.phase = .wait ∨ (s.seq.phase = .step ∧ s.seq.c ≠ 0) →
    s.seq.g = raster (strAt s.strbuf s.seq.i) s.seq.fgL s.seq.bgL
  /-- A pixel was dropped only from a full staging buffer (R94). -/
  overflow_full : s.sovf = true → s.scnt.val = 64
  /-- The region is in its canonical form. -/
  region_wf : Memory.wf s.region = true
  /-- The region has 128 bytes; no other address is ever written (R57). -/
  region_bound : ∀ a, 128 ≤ a → Memory.read s.region a = Memory.unlisted
  /-- Only a device sink writes the region (R57). -/
  region_device : s.sink ≠ .attached .device → s.region = []
  /-- The region holds the image of the last frame, or the zeroes of its initialization (R57). -/
  region_last_frame : s.region = [] ∨
    ∃ f, s.frames.getLast? = some f ∧ ∀ k : Fin 128, Memory.read s.region k.val = imageByte f k
  /-- Only a test sink receives frames (R58). -/
  received_test : s.sink ≠ .attached .test → s.received = []
  /-- The test sink has received the latest frames, in order (R51, R58). -/
  received_suffix : s.received <:+ s.frames

/-- `t` is `s` after exactly one frame, the framebuffer of `t`, has gone to the output stream and to the sink that is
attached (R54, R57, R58). Nothing is said here of the other fields. -/
structure EmittedOnce (s t : State) : Prop where
  frames : t.frames = s.frames ++ [t.fb]
  region_none : s.sink ≠ .attached .device → t.region = s.region
  region_image : s.sink = .attached .device → Memory.wf s.region = true →
    ∀ k : Fin 128, Memory.read t.region k.val = imageByte t.fb k
  region_above : ∀ a, 128 ≤ a → Memory.read t.region a = Memory.read s.region a
  received_none : s.sink ≠ .attached .test → t.received = s.received
  received_frame : s.sink = .attached .test → t.received = s.received ++ [t.fb]

/-- `t` is `s` but for the framebuffer, the output stream and the sink's side: what a mutating command may touch. -/
def OnlyDisplay (s t : State) : Prop :=
  t = { s with fb := t.fb, frames := t.frames, region := t.region, received := t.received }

/-- The operand error of a command in a state, by the table of R145; a command has at most one such check (R151). -/
def operandError (i : Instr) (s : State) : Option ErrCode :=
  match i with
  | .setpx x y _ => if x < 8 ∧ y < 8 then none else some .coord
  | .getpx x y => if x < 8 ∧ y < 8 then none else some .coord
  | .setpxa x y _ => if x < 8 ∧ y < 8 then none else some .coord
  | .getpxa x y => if x < 8 ∧ y < 8 then none else some .coord
  | .setdata => if s.scnt.val = 64 ∧ s.sovf = false then none else some .length
  | .shifts => if s.scnt.val = 8 ∧ s.sovf = false then none else some .length
  | .rotate deg => if deg % 90 = 0 then none else some .angle
  | .nop | .setall _ | .dataclr | .transpose | .reflv | .reflh | .setorient _ | .showchar _ | .shiftc _ | .scroll
  | .strclr | .clrerr | .flush | .pack _ _ _ | .unpack _ | .insr _ _ | .insg _ _ | .insb _ _ => none

/-- The commands that emit a frame when they succeed (R55). -/
def emitsFrame (i : Instr) : Bool :=
  match i with
  | .setpx _ _ _ | .setpxa _ _ _ | .setall _ | .setdata | .transpose | .reflv | .reflh | .rotate _ | .setorient _
  | .showchar _ | .shiftc _ | .shifts | .flush => true
  | .nop | .getpx _ _ | .getpxa _ _ | .dataclr | .scroll | .strclr | .clrerr | .pack _ _ _ | .unpack _ | .insr _ _
  | .insg _ _ | .insb _ _ => false

/-- The commands that write RESULT when they succeed (R22). -/
def writesResult (i : Instr) : Bool :=
  match i with
  | .getpx _ _ | .getpxa _ _ | .pack _ _ _ | .unpack _ | .insr _ _ | .insg _ _ | .insb _ _ => true
  | .nop | .setpx _ _ _ | .setpxa _ _ _ | .setall _ | .setdata | .dataclr | .transpose | .reflv | .reflh | .rotate _
  | .setorient _ | .showchar _ | .shiftc _ | .shifts | .scroll | .strclr | .clrerr | .flush => false

/-- Two states that differ at most in contents the spec leaves unspecified and calls unobservable: STAGE at and above
SCNT (R23), STRBUF at and above STRLEN (R24), the sequencer while IDLE (R29), its wait count outside WAIT and its blob
before column 0 has been shifted in (R133). -/
structure SameVisible (s t : State) : Prop where
  rest : t = { s with stage := t.stage, strbuf := t.strbuf, seq := t.seq }
  stage : ∀ k : Fin 64, k.val < s.scnt.val → cell t.stage k = cell s.stage k
  entries : t.strbuf.length = s.strbuf.length
  strbuf : ∀ k, k < s.strlen → strAt t.strbuf k = strAt s.strbuf k
  phase : t.seq.phase = s.seq.phase
  running : s.seq.phase ≠ .idle →
    t.seq.i = s.seq.i ∧ t.seq.c = s.seq.c ∧ t.seq.fgL = s.seq.fgL ∧ t.seq.bgL = s.seq.bgL ∧ t.seq.dL = s.seq.dL
  waiting : s.seq.phase = .wait → t.seq.w = s.seq.w
  glyph : s.seq.phase = .wait ∨ (s.seq.phase = .step ∧ s.seq.c ≠ 0) → t.seq.g = s.seq.g

/-- The last codepoint of a string buffer that is not empty (R137). -/
def lastChar (s : State) : Codepoint := strAt s.strbuf (s.strlen - 1)

/-- What `advance()` makes of the sequencer and STRLEN, from those of `s` to those of `t`: the next column, the next
character, or the end of the scroll (R134, R135). Nothing is said of the fields that are unspecified afterwards. -/
structure Advanced (s t : State) : Prop where
  column : s.seq.c.val < 7 →
    t.seq.phase = .step ∧ t.seq.c.val = s.seq.c.val + 1 ∧ t.seq.i = s.seq.i ∧ t.strlen = s.strlen
  character : s.seq.c.val = 7 → s.seq.i + 1 < s.strlen →
    t.seq.phase = .step ∧ t.seq.c.val = 0 ∧ t.seq.i = s.seq.i + 1 ∧ t.strlen = s.strlen
  complete : s.seq.c.val = 7 → s.strlen ≤ s.seq.i + 1 → t.seq.phase = .idle ∧ t.busy = false ∧ t.strlen = 0

/-- A host access or an engine tick: what may come, in any order, while a scroll runs (R50). -/
def isAccessOrTick : Input → Bool
  | .portWrite _ _ => true
  | .portRead _ => true
  | .tick => true
  | .reset => false
  | .attach _ => false

/-- `n` steps of the machine. -/
def steps : Nat → State → Host.Outcome State Fault Refusal
  | 0, s => .next s
  | n + 1, s =>
    match step s with
    | .next t => steps n t
    | .fault r => .fault r
    | .refused r => .refused r

/-- `u` is `t` but for what a host access may change while a scroll runs: FG, BG, DELAY and ERR, the words read and the
accesses still to come (R140). -/
def SameButHostSide (t u : State) : Prop :=
  u = { t with fg := u.fg, bg := u.bg, delay := u.delay, err := u.err, replies := u.replies, inputs := u.inputs }

/-- The host's accesses and the ticks `es` all come while a scroll of `n` ticks runs: each before its last tick has
passed. -/
def DuringScroll (n : Nat) (es : List Input) : Prop :=
  (∀ e ∈ es, isAccessOrTick e = true) ∧ es.dropLast.count .tick < n

/-- `n` engine ticks. -/
def ticks : Nat → State → State
  | 0, s => s
  | n + 1, s => ticks n (tick s)

/-- Commands one after another, each written to CMD (R51). -/
def execAll : List Instr → State → Host.Outcome State Fault Refusal
  | [], s => .next s
  | i :: is, s =>
    match exec i s with
    | .next t => execAll is t
    | .fault r => .fault r
    | .refused r => .refused r

/-- Pixels written to DATA one after another (R93, R94). -/
def writeAllData : List Colour → State → State
  | [], s => s
  | p :: ps, s => writeAllData ps (writeData (p.zeroExtend 32) s)

end Sys2Proof.Machine
end

