-- ==== Sys2Proof/Certificates/Slice0/Obligations.lean ====
section
/-! DEFINITION. The statements for the provers. Each docstring names the rules of spec/ it rests on. -/

open Sys2Proof Sys2Proof.Machine

/-! ## Encoding -/

/-- A few words written out in the spec decode to the commands they stand for (R75; 95_test_vectors.md §2.1). -/
def Obligations.SpecWordsDecode : Prop :=
  decode 0x00000000 = .command .nop ∧
  decode 0x0AB0F800 = .command (.setpx 5 6 0xF800) ∧
  decode 0x12B00000 = .command (.getpx 5 6) ∧
  decode 0x5800FFA6 = .command (.rotate (-90)) ∧
  decode 0x60000001 = .command (.setorient .right) ∧
  decode 0x68002598 = .command (.showchar 0x2598) ∧
  decode 0x80000000 = .command .scroll ∧
  decode 0xA0214121 = .command (.pack 33 65 33) ∧
  decode 0xB13FF800 = .command (.insg 0xF800 63) ∧
  decode 0xB3000000 = .illegal .reservedSel

/-- Decoding an encoded well-formed command gives the command back, with every operand (R62–R64, R75). -/
def Obligations.DecodeOfEncode : Prop :=
  ∀ i : Instr, WellFormed i = true → decode (encode i) = .command i

/-- A word that decodes to a command is the word of that command, which is well formed: no other word spells it
(R62–R64, R68). -/
def Obligations.EncodeOfDecode : Prop :=
  ∀ (w : Word) (i : Instr), decode w = .command i → WellFormed i = true ∧ encode i = w

/-- The encoding functions of R75, with every field masked to its width, and R75's two examples. -/
def Obligations.EncodingFunctions : Prop :=
  ∀ (op : BitVec 5) (x y : Nat) (c : Colour) (deg : Int) (o : Orientation) (cp : Codepoint) (r g b v : Byte)
    (sel : BitVec 3),
    encN op = op.zeroExtend 32 <<< 27 ∧
    encP op x y c =
      (op.zeroExtend 32 <<< 27 ||| BitVec.ofNat 32 (x % 16) <<< 23 ||| BitVec.ofNat 32 (y % 16) <<< 19
        ||| c.zeroExtend 32) ∧
    encQ op x y =
      (op.zeroExtend 32 <<< 27 ||| BitVec.ofNat 32 (x % 16) <<< 23 ||| BitVec.ofNat 32 (y % 16) <<< 19) ∧
    encC op c = (op.zeroExtend 32 <<< 27 ||| c.zeroExtend 32) ∧
    encA op deg = (op.zeroExtend 32 <<< 27 ||| (BitVec.ofInt 32 deg &&& 0xFFFF)) ∧
    encO op o = (op.zeroExtend 32 <<< 27 ||| o.code.zeroExtend 32) ∧
    encU op cp = (op.zeroExtend 32 <<< 27 ||| cp.zeroExtend 32) ∧
    encB op r g b =
      (op.zeroExtend 32 <<< 27 ||| b.zeroExtend 32 <<< 16 ||| g.zeroExtend 32 <<< 8 ||| r.zeroExtend 32) ∧
    encI op sel v c =
      (op.zeroExtend 32 <<< 27 ||| sel.zeroExtend 32 <<< 24 ||| v.zeroExtend 32 <<< 16 ||| c.zeroExtend 32) ∧
    encode (.setpx 5 6 0xF800) = 0x0AB0F800 ∧
    encode (.rotate (-90)) = 0x5800FFA6

/-- Every word is exactly one of two things: a command of exactly one row of the opcode table, or illegal; the all-zero
word is NOP and the all-ones word is illegal (R68). -/
def Obligations.EveryWordIsOneRowOrIllegal : Prop :=
  (∀ (w : Word) (i : Instr), decode w = .command i → (rowsOf w).map OpcodeRow.name = [mnemonic i]) ∧
  (∀ (w : Word) (why : Illegal), decode w = .illegal why → rowsOf w = []) ∧
  decode 0x00000000 = .command .nop ∧
  decode 0xFFFFFFFF = .illegal .reservedOpcode

/-! ## A step and the guard of a write -/

/-- A step that writes a command's word to CMD runs that command, in the state with the write taken off the inputs
(R15, R61, R64, R70). That a word placed by `withFetchWord` is the host's next access, and so is run by the next step, is
the model's choice (notes/assumptions/6.md). -/
def Obligations.StepRunsTheDecodedCommand : Prop :=
  (∀ (s : State) (w : Word) (i : Instr) (rest : List Input),
    s.inputs = .portWrite cmdAddr w :: rest → decode w = .command i → step s = exec i { s with inputs := rest }) ∧
  (∀ (s : State) (n : Nat) (i : Instr), n < 2 ^ 32 → decode (BitVec.ofNat 32 n) = .command i →
    step (s.withFetchWord 32 n) = exec i s)

/-- A reserved opcode, a reserved field that is not zero, or opcode 0x16 with sel 3..7 raises ILLEGAL and has no other
effect (R65, R66, R67). -/
def Obligations.IllegalWordsOnlySetErr : Prop :=
  ∀ (s : State) (w : Word) (rest : List Input), Ready s → s.inputs = .portWrite cmdAddr w :: rest →
    (0x17 ≤ (w >>> 27).toNat ∨
      (∃ f, formatOf (w >>> 27).toNat = some f ∧ w &&& reservedMask f ≠ 0) ∨
      ((w >>> 27).toNat = 0x16 ∧ 3 ≤ ((w >>> 24) &&& 0x7).toNat)) →
    step s = .next { s with inputs := rest, err := .illegal }

/-- Every command is ignored while FAULT = 1 and raises BUSY, with no other effect, while a scroll runs (R70, R140,
R150). -/
def Obligations.CommandsAreGuarded : Prop :=
  ∀ (i : Instr) (s : State),
    (s.fault = true → exec i s = .next s) ∧
    (s.fault = false → s.busy = true → exec i s = .next { s with err := .busy })

/-- Of the conditions that apply to one host write exactly one is reported: FAULT (nothing), then BUSY, then a malformed
word, then the operand check (R151). -/
def Obligations.WriteErrorPriority : Prop :=
  ∀ (s : State) (a : PortAddr) (v : Word) (rest : List Input), s.inputs = .portWrite a v :: rest →
    (s.fault = true → step s = .next { s with inputs := rest }) ∧
    (s.fault = false → s.busy = true → (portReg a = .cmd ∨ portReg a = .str ∨ portReg a = .data) →
      step s = .next { s with inputs := rest, err := .busy }) ∧
    (Ready s →
      ((portReg a = .cmd ∧ ∃ why, decode v = .illegal why) ∨
        (portReg a = .str ∧ v.extractLsb' 21 11 ≠ 0) ∨ (portReg a = .data ∧ v.extractLsb' 16 16 ≠ 0)) →
      step s = .next { s with inputs := rest, err := .illegal }) ∧
    (Ready s → portReg a = .cmd → ∀ i c, decode v = .command i → operandError i s = some c →
      ∃ t, step s = .next t ∧ t.err = c) ∧
    (Ready s → portReg a = .str → v.extractLsb' 21 11 = 0 → s.strlen = s.strcap →
      step s = .next { s with inputs := rest, err := .strovf })

/-- A recoverable operand error writes ERR and nothing else, but for the staging buffer that SETDATA and SHIFTS have
emptied before they raise it (R145, R147, R148). -/
def Obligations.OperandErrorsArePrecise : Prop :=
  ∀ (i : Instr) (s : State) (c : ErrCode), Ready s → operandError i s = some c → c ≠ .angle →
    exec i s = .next { s with
      err := c
      scnt := if i = .setdata ∨ i = .shifts then 0 else s.scnt
      sovf := if i = .setdata ∨ i = .shifts then false else s.sovf }

/-- The fault state: every write is ignored, reads are served, a tick has no effect, ERR stays ANGLE, and only reset
leaves it (R150). -/
def Obligations.FaultStateIsHalted : Prop :=
  ∀ s : State, Inv s → s.fault = true →
    (∀ a v rest, s.inputs = .portWrite a v :: rest → step s = .next { s with inputs := rest }) ∧
    (∀ a rest, s.inputs = .portRead a :: rest →
      step s = .next { s with inputs := rest, replies := s.replies ++ [portValue a s] }) ∧
    tick s = s ∧
    (∀ t, step s = .next t → (t.fault = true ∧ t.err = .angle) ∨ ∃ rest, s.inputs = .reset :: rest) ∧
    (∀ rest, s.inputs = .reset :: rest → ∃ t, step s = .next t ∧ t.fault = false)

/-- FAULT is set only by ROTATE with an unsupported angle, which changes nothing but ERR and FAULT (R28, R149). -/
def Obligations.FaultComesOnlyFromRotate : Prop :=
  ∀ s t : State, step s = .next t → s.fault = false → t.fault = true →
    ∃ w rest deg, s.inputs = .portWrite cmdAddr w :: rest ∧ decode w = .command (.rotate deg) ∧ deg % 90 ≠ 0 ∧ Ready s ∧
      t = { s with inputs := rest, err := .angle, fault := true }

/-- While a scroll runs, CMD, STR and DATA writes raise BUSY with no other effect, FG, BG and DELAY writes are accepted
and leave the sequencer alone, and reads are served. What a tick does to everything else depends neither on FG, BG and
DELAY nor on ERR, and it leaves these as they are: such an access and a tick commute (R140). -/
def Obligations.AccessesDuringAScroll : Prop :=
  ∀ (s : State) (a : PortAddr) (v : Word) (rest : List Input), s.fault = false → s.busy = true →
    (s.inputs = .portWrite a v :: rest →
      ((portReg a = .cmd ∨ portReg a = .str ∨ portReg a = .data) →
        step s = .next { s with inputs := rest, err := .busy }) ∧
      (portReg a = .fg → step s = .next { s with inputs := rest, fg := v.extractLsb' 0 16 }) ∧
      (portReg a = .bg → step s = .next { s with inputs := rest, bg := v.extractLsb' 0 16 }) ∧
      (portReg a = .delay → step s = .next { s with inputs := rest, delay := v })) ∧
    (s.inputs = .portRead a :: rest →
      step s = .next { s with inputs := rest, replies := s.replies ++ [portValue a s] }) ∧
    (∀ fg bg delay err replies inputs,
      tick { s with fg := fg, bg := bg, delay := delay, err := err, replies := replies, inputs := inputs } =
        { tick s with fg := fg, bg := bg, delay := delay, err := err, replies := replies, inputs := inputs })

/-! ## The register port -/

/-- A write to STR, in every case (R129). -/
def Obligations.StrWriteAppends : Prop :=
  ∀ (s : State) (a : PortAddr) (v : Word) (rest : List Input), byteOffset a = 0x018 →
    s.inputs = .portWrite a v :: rest →
    ∃ t, step s = .next t ∧
      (s.fault = true → t = { s with inputs := rest }) ∧
      (s.fault = false → s.busy = true → t = { s with inputs := rest, err := .busy }) ∧
      (Ready s → v.toNat / 2 ^ 21 ≠ 0 → t = { s with inputs := rest, err := .illegal }) ∧
      (Ready s → v.toNat / 2 ^ 21 = 0 → s.strlen = s.strcap → t = { s with inputs := rest, err := .strovf }) ∧
      (Ready s → v.toNat / 2 ^ 21 = 0 → s.strlen ≠ s.strcap →
        t = { s with
          inputs := rest, strbuf := s.strbuf.set s.strlen (BitVec.ofNat 21 v.toNat), strlen := s.strlen + 1 } ∧
        (Inv s → strAt t.strbuf s.strlen = BitVec.ofNat 21 v.toNat ∧
          ∀ k, k ≠ s.strlen → strAt t.strbuf k = strAt s.strbuf k))

/-- A write to DATA, in every case (R94). -/
def Obligations.DataWriteAppends : Prop :=
  ∀ (s : State) (a : PortAddr) (v : Word) (rest : List Input), byteOffset a = 0x01C →
    s.inputs = .portWrite a v :: rest →
    ∃ t, step s = .next t ∧
      (s.fault = true → t = { s with inputs := rest }) ∧
      (s.fault = false → s.busy = true → t = { s with inputs := rest, err := .busy }) ∧
      (Ready s → v.toNat / 2 ^ 16 ≠ 0 → t = { s with inputs := rest, err := .illegal }) ∧
      (Ready s → v.toNat / 2 ^ 16 = 0 → s.scnt.val = 64 → t = { s with inputs := rest, sovf := true }) ∧
      (Ready s → v.toNat / 2 ^ 16 = 0 → ∀ h : s.scnt.val < 64,
        t = { s with inputs := rest, stage := t.stage, scnt := t.scnt } ∧
        t.scnt.val = s.scnt.val + 1 ∧ t.stage = s.stage.set s.scnt.val (BitVec.ofNat 16 v.toNat) h)

/-- FG and BG keep bits [15:0] of what is written and read bits [31:16] as 0; DELAY keeps all 32 bits (R19, R20, R21,
R44). -/
def Obligations.ColourAndDelayRegisters : Prop :=
  ∀ (s : State) (a : PortAddr) (v : Word) (rest : List Input), s.fault = false →
    s.inputs = .portWrite a v :: rest →
    (byteOffset a = 0x00C → step s = .next { s with inputs := rest, fg := BitVec.ofNat 16 v.toNat } ∧
      ∀ t, step s = .next t → (portValue a t).toNat = v.toNat % 65536) ∧
    (byteOffset a = 0x010 → step s = .next { s with inputs := rest, bg := BitVec.ofNat 16 v.toNat } ∧
      ∀ t, step s = .next t → (portValue a t).toNat = v.toNat % 65536) ∧
    (byteOffset a = 0x014 → step s = .next { s with inputs := rest, delay := v } ∧
      ∀ t, step s = .next t → portValue a t = v)

/-- Unmapped offsets read 0 and ignore writes, write-only registers read 0, and writes to read-only registers are
ignored; no error is recorded (R41, R42, R43). -/
def Obligations.UnmappedAndOneWayOffsets : Prop :=
  ∀ (s : State) (a : PortAddr),
    (byteOffset a ∈ [0x000, 0x018, 0x01C] ∨ (0x020 < byteOffset a ∧ ¬ (0x100 ≤ byteOffset a ∧ byteOffset a ≤ 0x17C)) →
      portValue a s = 0 ∧ ∀ rest, s.inputs = .portRead a :: rest →
        step s = .next { s with inputs := rest, replies := s.replies ++ [0] }) ∧
    (byteOffset a ∉ [0x000, 0x00C, 0x010, 0x014, 0x018, 0x01C] → ∀ v rest, s.inputs = .portWrite a v :: rest →
      step s = .next { s with inputs := rest })

/-- A read returns a word to the host and changes nothing else, whatever the state, and the registers then read the
same; RESULT and STRLEN read as they are held (R22, R24, R39, R44). -/
def Obligations.ReadsHaveNoSideEffect : Prop :=
  ∀ (s : State) (a b : PortAddr) (rest : List Input), s.inputs = .portRead a :: rest →
    ∃ t, step s = .next t ∧ t = { s with inputs := rest, replies := s.replies ++ [portValue a s] } ∧
      portValue b t = portValue b s ∧
      (byteOffset a = 0x008 → portValue a s = s.result) ∧
      (byteOffset a = 0x020 → portValue a s = BitVec.ofNat 32 s.strlen ∧ (Inv s → (portValue a s).toNat = s.strlen))

/-- STATUS: each field at its place, ERR and ORIENT by the numbers of R145 and R10, the reserved fields read 0, and all of it reads 0 after reset; a write to it is
ignored (R25). -/
def Obligations.StatusFields : Prop :=
  ∀ (s : State) (a : PortAddr), byteOffset a = 0x004 →
    ((portValue a s).extractLsb' 0 1 = BitVec.ofBool (s.seq.phase ≠ .idle) ∧
      (portValue a s).extractLsb' 1 1 = BitVec.ofBool s.fault ∧
      (portValue a s).extractLsb' 2 2 = 0 ∧
      ((portValue a s).extractLsb' 4 4).toNat =
        (match s.err with
        | .none => 0
        | .illegal => 1
        | .coord => 2
        | .length => 3
        | .busy => 4
        | .strovf => 5
        | .angle => 6) ∧
      ((portValue a s).extractLsb' 8 2).toNat =
        (match s.orient with
        | .up => 0
        | .right => 1
        | .down => 2
        | .left => 3) ∧
      (portValue a s).extractLsb' 10 6 = 0 ∧
      ((portValue a s).extractLsb' 16 7).toNat = s.scnt.val ∧
      (portValue a s).extractLsb' 23 1 = BitVec.ofBool s.sovf ∧
      (portValue a s).extractLsb' 24 8 = 0) ∧
    portValue a State.reset = 0 ∧
    ∀ v rest, s.inputs = .portWrite a v :: rest → step s = .next { s with inputs := rest }

/-- The framebuffer window: word j holds cell 2j low and cell 2j+1 high whatever the orientation, its bytes are the
little-endian 128-byte image, and a write to it is ignored (R45, R46). -/
def Obligations.WindowShowsTheImage : Prop :=
  ∀ (s : State) (a : PortAddr) (j : Fin 32), byteOffset a = 0x100 + 4 * j.val →
    (portValue a s).toNat =
      (cell s.fb ⟨2 * j.val, by omega⟩).toNat + 65536 * (cell s.fb ⟨2 * j.val + 1, by omega⟩).toNat ∧
    (∀ k : Fin 4, imageByte s.fb ⟨4 * j.val + k.val, by omega⟩ = (portValue a s).extractLsb' (8 * k.val) 8) ∧
    (∀ i : Fin 64, (imageByte s.fb ⟨2 * i.val, by omega⟩).toNat = (cell s.fb i).toNat % 256 ∧
      (imageByte s.fb ⟨2 * i.val + 1, by omega⟩).toNat = (cell s.fb i).toNat / 256) ∧
    (∀ v rest, s.inputs = .portWrite a v :: rest → step s = .next { s with inputs := rest })

/-! ## Control commands -/

/-- NOP changes nothing, CLRERR clears ERR and nothing else, FLUSH emits the framebuffer and changes nothing else (R141,
R142, R143, R154). -/
def Obligations.ControlCommands : Prop :=
  ∀ s : State, Ready s →
    exec .nop s = .next s ∧ exec .clrerr s = .next { s with err := .none } ∧
    ∃ t, exec .flush s = .next t ∧ t.fb = s.fb ∧ EmittedOnce s t ∧ OnlyDisplay s t

/-! ## Pixel access -/

/-- The mux is ρ^o, with ρ(x, y) = (7 − y, x), and the corner table (R91). -/
def Obligations.MuxIsRho : Prop :=
  (∀ (o : Orientation) (x y : Fin 8),
    idx o x y = (fun p : Fin 8 × Fin 8 => cellIdx p.1 p.2)
      ((fun p : Fin 8 × Fin 8 => (mirror p.2, p.1))^[o.code.toNat] (x, y))) ∧
  (∀ o : Orientation, [idx o 0 0, idx o 7 0, idx o 0 7, idx o 7 7, idx o 5 6] =
    match o with
    | .up => [cellIdx 0 0, cellIdx 7 0, cellIdx 0 7, cellIdx 7 7, cellIdx 5 6]
    | .right => [cellIdx 7 0, cellIdx 7 7, cellIdx 0 0, cellIdx 0 7, cellIdx 1 5]
    | .down => [cellIdx 7 7, cellIdx 0 7, cellIdx 7 0, cellIdx 0 0, cellIdx 2 1]
    | .left => [cellIdx 0 7, cellIdx 0 0, cellIdx 7 7, cellIdx 7 0, cellIdx 6 2])

/-- SETPX: the one cell of logical (x, y) takes the colour and one frame goes out; out of range it raises COORD and has
no other effect (R85). -/
def Obligations.SetpxWritesOneCell : Prop :=
  ∀ (s : State) (c : Colour), Ready s →
    (∀ x y : Fin 8, ∃ t, exec (.setpx x.val y.val c) s = .next t ∧
      (∀ j, cell t.fb j = if j = idx s.orient x y then c else cell s.fb j) ∧ EmittedOnce s t ∧ OnlyDisplay s t) ∧
    (∀ x y : Nat, ¬ (x < 8 ∧ y < 8) → exec (.setpx x y c) s = .next { s with err := .coord })

/-- SETPXA: the same at native (x, y); ORIENT is neither read nor changed (R87). -/
def Obligations.SetpxaWritesOneCell : Prop :=
  ∀ (s : State) (c : Colour), Ready s →
    (∀ x y : Fin 8, ∃ t, exec (.setpxa x.val y.val c) s = .next t ∧
      (∀ j : Fin 64, cell t.fb j = if j.val = 8 * y.val + x.val then c else cell s.fb j) ∧
      EmittedOnce s t ∧ OnlyDisplay s t) ∧
    (∀ x y : Nat, ¬ (x < 8 ∧ y < 8) → exec (.setpxa x y c) s = .next { s with err := .coord })

/-- GETPX and GETPXA: RESULT takes the cell, zero-extended, and nothing else changes; out of range they raise COORD and
have no other effect (R86, R88). -/
def Obligations.GetpxReadsOneCell : Prop :=
  ∀ s : State, Ready s →
    (∀ x y : Fin 8,
      exec (.getpx x.val y.val) s = .next { s with result := (cell s.fb (idx s.orient x y)).zeroExtend 32 } ∧
      exec (.getpxa x.val y.val) s = .next { s with result := (cellAt s.fb x y).zeroExtend 32 }) ∧
    (∀ x y : Nat, ¬ (x < 8 ∧ y < 8) →
      exec (.getpx x y) s = .next { s with err := .coord } ∧ exec (.getpxa x y) s = .next { s with err := .coord })

/-- The mux is a bijection; so GETPX after SETPX at the same place returns the colour written, and no other cell has
changed (R90). -/
def Obligations.MuxIsABijection : Prop :=
  (∀ o : Orientation, Function.Bijective fun p : Fin 8 × Fin 8 => idx o p.1 p.2) ∧
  (∀ (s : State) (x y : Fin 8) (c : Colour), Ready s →
    ∃ t, execAll [.setpx x.val y.val c, .getpx x.val y.val] s = .next t ∧ t.result = c.zeroExtend 32 ∧
      ∀ j, j ≠ idx s.orient x y → cell t.fb j = cell s.fb j)

/-- SETALL: every cell takes the colour, and one frame goes out (R89). -/
def Obligations.SetallFillsEveryCell : Prop :=
  ∀ (s : State) (c : Colour), Ready s →
    ∃ t, exec (.setall c) s = .next t ∧ (∀ j, cell t.fb j = c) ∧ EmittedOnce s t ∧ OnlyDisplay s t

/-- SETDATA: with exactly 64 pixels and none dropped the buffer becomes the staged pixels in native order and one frame
goes out; otherwise LENGTH. The staging buffer is emptied either way (R95). -/
def Obligations.SetdataCommitsOrRaisesLength : Prop :=
  ∀ s : State, Ready s →
    (s.scnt.val = 64 ∧ s.sovf = false →
      ∃ t, exec .setdata s = .next t ∧ (∀ j : Fin 64, cell t.fb j = cell s.stage j) ∧ t.scnt.val = 0 ∧ t.sovf = false ∧
        EmittedOnce s t ∧ OnlyDisplay { s with scnt := t.scnt, sovf := t.sovf } t) ∧
    (¬ (s.scnt.val = 64 ∧ s.sovf = false) →
      exec .setdata s = .next { s with scnt := 0, sovf := false, err := .length })

/-- DATACLR empties the staging buffer, STRCLR the string buffer; nothing else changes (R96, R130). -/
def Obligations.ClearsEmptyTheBuffers : Prop :=
  ∀ s : State, Ready s →
    exec .dataclr s = .next { s with scnt := 0, sovf := false } ∧ exec .strclr s = .next { s with strlen := 0 }

/-- Reading the window and loading the same 64 pixels back leaves the buffer as it was, emits one frame and leaves the
staging buffer empty (R97). -/
def Obligations.WindowRoundTrip : Prop :=
  ∀ s : State, Ready s →
    (List.finRange 32).flatMap (fun j =>
      [(portValue (BitVec.ofNat 10 (64 + j.val)) s).extractLsb' 0 16,
        (portValue (BitVec.ofNat 10 (64 + j.val)) s).extractLsb' 16 16]) = s.fb.toList ∧
    ∃ t u, exec .dataclr s = .next t ∧ exec .setdata (writeAllData s.fb.toList t) = .next u ∧
      u.fb = s.fb ∧ u.frames = s.frames ++ [s.fb] ∧ u.scnt.val = 0 ∧ u.sovf = false ∧ u.err = s.err

/-! ## Transforms -/

/-- TRANSPOSE, REFLV and REFLH move the cells of the native buffer as R100–R102 say, and one frame goes out (R100, R101,
R102, R103). -/
def Obligations.PrimitiveTransforms : Prop :=
  ∀ s : State, Ready s →
    (∃ t, exec .transpose s = .next t ∧ (∀ x y, cellAt t.fb x y = cellAt s.fb y x) ∧ EmittedOnce s t ∧ OnlyDisplay s t) ∧
    (∃ t, exec .reflv s = .next t ∧ (∀ x y, cellAt t.fb x y = cellAt s.fb (mirror x) y) ∧
      EmittedOnce s t ∧ OnlyDisplay s t) ∧
    (∃ t, exec .reflh s = .next t ∧ (∀ x y, cellAt t.fb x y = cellAt s.fb x (mirror y)) ∧
      EmittedOnce s t ∧ OnlyDisplay s t)

/-- ROTATE by a multiple of 90 turns the native buffer by `deg mod 360` and one frame goes out; any other angle is the
fault ANGLE, which changes neither the buffer nor ORIENT and emits nothing (R104, R110, R149). -/
def Obligations.RotateTurnsOrFaults : Prop :=
  ∀ (s : State) (deg : Int), Ready s →
    (deg % 90 = 0 →
      ∃ t, exec (.rotate deg) s = .next t ∧ EmittedOnce s t ∧ OnlyDisplay s t ∧
        ∀ x y, cellAt t.fb x y =
          if deg % 360 = 0 then cellAt s.fb x y
          else if deg % 360 = 90 then cellAt s.fb (mirror y) x
          else if deg % 360 = 180 then cellAt s.fb (mirror x) (mirror y)
          else cellAt s.fb y (mirror x)) ∧
    (deg % 90 ≠ 0 → exec (.rotate deg) s = .next { s with err := .angle, fault := true })

/-- SETORIENT rotates the native buffer by `(ORIENT - o) mod 4` quarter turns, and every logical cell keeps its value,
for all pairs of orientations; one frame goes out (R105, R106, R107). -/
def Obligations.SetorientPreservesLogicalCells : Prop :=
  ∀ (s : State) (o : Orientation), Ready s →
    ∃ t, exec (.setorient o) s = .next t ∧ t.orient = o ∧
      (∀ x y, cell t.fb (idx t.orient x y) = cell s.fb (idx s.orient x y)) ∧
      (∃ k : Fin 4, (k.val : Int) = ((s.orient.code.toNat : Int) - (o.code.toNat : Int)) % 4 ∧ t.fb = rotated k s.fb) ∧
      EmittedOnce s t ∧ OnlyDisplay { s with orient := o } t

/-- The algebra of the transforms: self-inverse primitives, rotations that add, and no drift (R108). -/
def Obligations.TransformAlgebra : Prop :=
  (∀ b, transposed (transposed b) = b ∧ reflectedV (reflectedV b) = b ∧ reflectedH (reflectedH b) = b) ∧
  (∀ j k b, rotated j (rotated k b) = rotated (j + k) b) ∧
  (∀ (s : State) (deg : Int), Ready s → deg % 90 = 0 →
    ∃ t, execAll [.rotate deg, .rotate (-deg)] s = .next t ∧ t.fb = s.fb) ∧
  (∀ s : State, Ready s →
    (∃ t, execAll (List.replicate 20 [Instr.rotate 90, .rotate (-90)]).flatten s = .next t ∧ t.fb = s.fb) ∧
    (∃ t, execAll (List.replicate 40 (.rotate 90)) s = .next t ∧ t.fb = s.fb)) ∧
  (∀ b, rotated 1 b = reflectedH (transposed b) ∧ rotated 2 b = reflectedV (reflectedH b) ∧
    rotated 3 b = reflectedV (transposed b))

/-! ## The font -/

/-- The lookup: the glyph of the table whose range holds the codepoint, and none where no range does (R117). -/
def Obligations.GlyphLookup : Prop :=
  ∀ cp : Codepoint,
    (∀ j, Config.font.lo j ≤ cp → cp ≤ Config.font.hi j → glyphRows cp = some (Config.font.rom j cp)) ∧
    ((∀ j, ¬ (Config.font.lo j ≤ cp ∧ cp ≤ Config.font.hi j)) → glyphRows cp = none)

/-- SHOWCHAR: every logical cell becomes foreground where the glyph's bit is set and background elsewhere, all
background where there is no glyph, and one frame goes out (R118, R119). It holds for every font the spec admits. -/
def Obligations.ShowcharPlacesTheGlyph : Prop :=
  ∀ (s : State) (cp : Codepoint), Ready s →
    ∃ t, exec (.showchar cp) s = .next t ∧ EmittedOnce s t ∧ OnlyDisplay s t ∧
      ∀ x y : Fin 8, cell t.fb (idx s.orient x y) =
        match glyphRows cp with
        | some row => if (row[y.val]).getLsbD x.val then s.fg else s.bg
        | none => s.bg

/-- U+2598 lands in the orientation's quadrant of R120's table, and the cells outside it are background. That these are
16 and 48 cells is the model's reading of R116's rows (notes/assumptions/16.md): R120 itself says "the other 60 cells". -/
def Obligations.BoxGlyphQuadrants : Prop :=
  ∀ s : State, Ready s →
    ∃ t, exec (.showchar 0x2598) s = .next t ∧
      ∀ x y : Fin 8, cellAt t.fb x y =
        if (match s.orient with
          | .up => decide (x.val < 4 ∧ y.val < 4)
          | .right => decide (4 ≤ x.val ∧ y.val < 4)
          | .down => decide (4 ≤ x.val ∧ 4 ≤ y.val)
          | .left => decide (x.val < 4 ∧ 4 ≤ y.val)) then s.fg else s.bg

/-- U+0401, and every value that is no Unicode scalar, is a uniform blank in every orientation (R119, R121). -/
def Obligations.UnmappedIsBlank : Prop :=
  ∀ (s : State) (cp : Codepoint), Ready s →
    cp = 0x0401 ∨ (0xD800 ≤ cp ∧ cp ≤ 0xDFFF) ∨ 0x10FFFF < cp →
    ∃ t, exec (.showchar cp) s = .next t ∧ ∀ j, cell t.fb j = s.bg

/-! ## Shift and scroll -/

/-- SHIFTC: logical column x takes column x + 1, column 7 takes the colour, and one frame goes out (R123, R125). -/
def Obligations.ShiftcShiftsLeft : Prop :=
  ∀ (s : State) (c : Colour), Ready s →
    ∃ t, exec (.shiftc c) s = .next t ∧ EmittedOnce s t ∧ OnlyDisplay s t ∧
      ∀ y : Fin 8, cell t.fb (idx s.orient 7 y) = c ∧
        ∀ (x : Fin 8) (h : x.val < 7),
          cell t.fb (idx s.orient x y) = cell s.fb (idx s.orient ⟨x.val + 1, by omega⟩ y)

/-- SHIFTS: the same with the staged column, for exactly 8 pixels and none dropped; otherwise LENGTH. The staging buffer
is emptied either way (R123, R126). -/
def Obligations.ShiftsShiftsTheStagedColumn : Prop :=
  ∀ s : State, Ready s →
    (s.scnt.val = 8 ∧ s.sovf = false →
      ∃ t, exec .shifts s = .next t ∧ t.scnt.val = 0 ∧ t.sovf = false ∧ EmittedOnce s t ∧
        OnlyDisplay { s with scnt := t.scnt, sovf := t.sovf } t ∧
        ∀ y : Fin 8, cell t.fb (idx s.orient 7 y) = cell s.stage ⟨y.val, by omega⟩ ∧
          ∀ (x : Fin 8) (h : x.val < 7),
            cell t.fb (idx s.orient x y) = cell s.fb (idx s.orient ⟨x.val + 1, by omega⟩ y)) ∧
    (¬ (s.scnt.val = 8 ∧ s.sovf = false) →
      exec .shifts s = .next { s with scnt := 0, sovf := false, err := .length })

/-- From an all-0x0000 buffer, a red column and then eight black ones restore it (R127). -/
def Obligations.ShiftTestRestores : Prop :=
  ∀ s : State, Ready s → (∀ j, cell s.fb j = 0x0000) →
    ∃ t, execAll (.shiftc 0xF800 :: List.replicate 8 (.shiftc 0x0000)) s = .next t ∧ ∀ j, cell t.fb j = 0x0000

/-- SCROLL: nothing for an empty string; otherwise the sequencer starts at column 0 of character 0 with the colours and
`floor(DELAY / 8)` latched, and nothing else changes (R132). -/
def Obligations.ScrollStartsTheSequencer : Prop :=
  ∀ s : State, Ready s →
    (s.strlen = 0 → exec .scroll s = .next s) ∧
    (s.strlen ≠ 0 → ∃ t, exec .scroll s = .next t ∧ t = { s with seq := t.seq } ∧
      t.seq.phase = .step ∧ t.busy = true ∧ t.seq.i = 0 ∧ t.seq.c.val = 0 ∧ t.seq.fgL = s.fg ∧ t.seq.bgL = s.bg ∧
      t.seq.dL.toNat = s.delay.toNat / 8)

/-- A tick in phase STEP shifts column `c` of the current character's blob in and emits one frame, then advances or
starts to wait; a tick in phase WAIT counts one down and advances at the end; a tick in phase IDLE has no effect
(R133–R135). Besides the display and the sequencer a tick writes only STRLEN, and that only by completing a scroll: no
tick writes FG, BG, DELAY, RESULT, ORIENT, a buffer or an error (R133, R135, R152). That a step with no input pending is
a tick is the model's choice (notes/assumptions/5.md). -/
def Obligations.TickRunsOneColumnStep : Prop :=
  ∀ s : State,
    (s.seq.phase = .step →
      EmittedOnce s (tick s) ∧
      ∀ y : Fin 8,
        cell (tick s).fb (idx s.orient 7 y) =
          blobCell (if s.seq.c.val = 0 then raster (strAt s.strbuf s.seq.i) s.seq.fgL s.seq.bgL else s.seq.g) s.seq.c y ∧
        ∀ (x : Fin 8) (h : x.val < 7),
          cell (tick s).fb (idx s.orient x y) = cell s.fb (idx s.orient ⟨x.val + 1, by omega⟩ y)) ∧
    (s.seq.phase = .step →
      (tick s).seq.g = (if s.seq.c.val = 0 then raster (strAt s.strbuf s.seq.i) s.seq.fgL s.seq.bgL else s.seq.g) ∧
      (s.seq.dL = 0 → Advanced s (tick s)) ∧
      (s.seq.dL ≠ 0 → (tick s).seq.phase = .wait ∧ (tick s).seq.w = s.seq.dL ∧ (tick s).seq.c = s.seq.c ∧
        (tick s).seq.i = s.seq.i ∧ (tick s).strlen = s.strlen)) ∧
    (s.seq.phase = .wait →
      tick s = { s with seq := (tick s).seq, strlen := (tick s).strlen } ∧ (tick s).seq.g = s.seq.g ∧
      (s.seq.w = 1 → Advanced s (tick s)) ∧
      (s.seq.w ≠ 1 → (tick s).seq.phase = .wait ∧ (tick s).seq.w = s.seq.w - 1 ∧ (tick s).seq.c = s.seq.c ∧
        (tick s).seq.i = s.seq.i ∧ (tick s).strlen = s.strlen)) ∧
    (s.seq.phase = .idle → tick s = s) ∧
    ((tick s).seq.fgL = s.seq.fgL ∧ (tick s).seq.bgL = s.seq.bgL ∧ (tick s).seq.dL = s.seq.dL) ∧
    OnlyDisplay { s with seq := (tick s).seq, strlen := (tick s).strlen } (tick s) ∧
    step { s with inputs := [] } = .next (tick { s with inputs := [] }) ∧
    ∀ rest, step { s with inputs := .tick :: rest } = .next (tick { s with inputs := rest })

/-- The timing law: with n characters and d = floor(DELAY / 8), column step k runs at tick 1 + k(d + 1) and emits frame
k, exactly 8n frames go out, and BUSY falls with tick 8n(d + 1) (R136). It holds whatever the host does meanwhile: after
any interleaving of accesses and ticks the scroll has got exactly as far as after its ticks alone (R50, R140). -/
def Obligations.ScrollTiming : Prop :=
  ∀ s : State, Ready s → s.strlen ≠ 0 →
    ∃ t, exec .scroll s = .next t ∧ t.frames = s.frames ∧
      (∀ k j, k < 8 * s.strlen → 1 ≤ j → j ≤ s.delay.toNat / 8 + 1 →
        (ticks (k * (s.delay.toNat / 8 + 1) + j) t).frames.length = s.frames.length + k + 1) ∧
      (∀ m, m < 8 * s.strlen * (s.delay.toNat / 8 + 1) → (ticks m t).busy = true) ∧
      (ticks (8 * s.strlen * (s.delay.toNat / 8 + 1)) t).busy = false ∧
      (ticks (8 * s.strlen * (s.delay.toNat / 8 + 1)) t).frames.length = s.frames.length + 8 * s.strlen ∧
      (∀ es rest, DuringScroll (8 * s.strlen * (s.delay.toNat / 8 + 1)) es →
        ∃ u, steps es.length { t with inputs := es ++ rest } = .next u ∧ u.inputs = rest ∧
          SameButHostSide (ticks (es.count .tick) t) u)

/-- The end of a scroll of n characters: the buffer shows the last character's blob, placed upright as SHOWCHAR would
place it with the same colours, and the string is consumed, whatever the host does meanwhile (R50, R135, R137, R140). -/
def Obligations.ScrollEndsOnTheLastCharacter : Prop :=
  ∀ s : State, Ready s → s.strlen ≠ 0 →
    ∃ t u, exec .scroll s = .next t ∧ ticks (8 * s.strlen * (s.delay.toNat / 8 + 1)) t = u ∧
      u.busy = false ∧ u.strlen = 0 ∧ u.err = s.err ∧ u.orient = s.orient ∧
      (∀ x y, cell u.fb (idx s.orient x y) =
        rasterCell (lastChar s) s.fg s.bg x y) ∧
      (∃ v, exec (.showchar (lastChar s)) s = .next v ∧ v.fb = u.fb) ∧
      (∀ es rest, DuringScroll (8 * s.strlen * (s.delay.toNat / 8 + 1)) es →
        es.count .tick = 8 * s.strlen * (s.delay.toNat / 8 + 1) →
        ∃ w, steps es.length { t with inputs := es ++ rest } = .next w ∧ w.busy = false ∧ w.strlen = 0 ∧
          w.orient = s.orient ∧ w.fb = u.fb)

/-- Every scroll in progress ends within a bounded number of ticks, from every state that meets the invariant (R174). -/
def Obligations.ScrollAlwaysEnds : Prop :=
  ∀ s : State, Inv s → s.busy = true →
    ∃ m, m ≤ 8 * (s.strlen - s.seq.i) * (s.seq.dL.toNat + 1) ∧ (ticks m s).busy = false

/-! ## Colour -/

/-- PACK masks each component to its field and writes RESULT only (R76, R77, R83). -/
def Obligations.PackMasksComponents : Prop :=
  ∀ (s : State) (r g b : Byte), Ready s →
    ∃ t, exec (.pack r g b) s = .next t ∧ t = { s with result := t.result } ∧
      t.result.toNat = (r.toNat % 32) * 2048 + (g.toNat % 64) * 32 + b.toNat % 32

/-- UNPACK puts red, green and blue in their byte lanes of RESULT, and PACK of that word gives the colour again (R77,
R78). -/
def Obligations.UnpackThenPack : Prop :=
  ∀ (s : State) (c : Colour), Ready s →
    ∃ t, exec (.unpack c) s = .next t ∧ t = { s with result := t.result } ∧
      t.result.toNat = c.toNat / 2048 + (c.toNat / 32 % 64) * 256 + (c.toNat % 32) * 65536 ∧
      ∃ i u, decode (0xA0000000 ||| (t.result &&& 0x00FFFFFF)) = .command i ∧ exec i t = .next u ∧
        u.result = c.zeroExtend 32

/-- INSR, INSG and INSB replace one component by the masked byte, pass the others through, and write RESULT only (R79,
R80, R81). -/
def Obligations.InsertsReplaceOneComponent : Prop :=
  ∀ (s : State) (c : Colour) (v : Byte), Ready s →
    (∃ t, exec (.insr c v) s = .next t ∧ t = { s with result := t.result } ∧
      t.result.toNat = (v.toNat % 32) * 2048 + c.toNat % 2048) ∧
    (∃ t, exec (.insg c v) s = .next t ∧ t = { s with result := t.result } ∧
      t.result.toNat = (c.toNat / 2048) * 2048 + (v.toNat % 64) * 32 + c.toNat % 32) ∧
    (∃ t, exec (.insb c v) s = .next t ∧ t = { s with result := t.result } ∧
      t.result.toNat = (c.toNat / 32) * 32 + v.toNat % 32)

/-! ## Rules of the whole machine -/

/-- A mutating command and FLUSH emit exactly one frame when they succeed; so does each column step; nothing else emits
one (R55, R56). -/
def Obligations.ExactlyTheseEmitFrames : Prop :=
  (∀ (i : Instr) (s : State), Ready s → ∃ t, exec i s = .next t ∧
    t.frames = s.frames ++ (if emitsFrame i = true ∧ operandError i s = none then [t.fb] else [])) ∧
  (∀ s : State, (tick s).frames = s.frames ++ (if s.seq.phase = .step then [(tick s).fb] else [])) ∧
  (∀ s t : State, step s = .next t → t.frames ≠ s.frames →
    (∃ w rest i, s.inputs = .portWrite cmdAddr w :: rest ∧ decode w = .command i ∧ Ready s ∧
      emitsFrame i = true ∧ operandError i s = none) ∨
    (s.seq.phase = .step ∧ (s.inputs = [] ∨ ∃ rest, s.inputs = .tick :: rest)))

/-- The output stream only grows: a step keeps every frame already emitted, reset included, and adds at most one (R33,
R51, R161). -/
def Obligations.FrameStreamOnlyGrows : Prop :=
  ∀ s t : State, step s = .next t → t.frames = s.frames ∨ t.frames = s.frames ++ [t.fb]

/-- Only mutating commands that succeed (FLUSH is none), column steps and reset change the framebuffer; no other access
writes a cell (R17, R99, R161). -/
def Obligations.OnlyCommandsAndColumnStepsWriteCells : Prop :=
  ∀ s t : State, step s = .next t → t.fb ≠ s.fb →
    (∃ w rest i, s.inputs = .portWrite cmdAddr w :: rest ∧ decode w = .command i ∧ Ready s ∧
      emitsFrame i = true ∧ i ≠ .flush ∧ operandError i s = none) ∨
    (s.seq.phase = .step ∧ (s.inputs = [] ∨ ∃ rest, s.inputs = .tick :: rest)) ∨
    (∃ rest, s.inputs = .reset :: rest)

/-- Only the seven value commands, when they succeed, and reset change RESULT; all but UNPACK leave a 16-bit value in
it (R22). -/
def Obligations.OnlyValueCommandsWriteResult : Prop :=
  (∀ s t : State, step s = .next t → t.result ≠ s.result →
    (∃ w rest i, s.inputs = .portWrite cmdAddr w :: rest ∧ decode w = .command i ∧ Ready s ∧
      writesResult i = true ∧ operandError i s = none) ∨
    (∃ rest, s.inputs = .reset :: rest)) ∧
  (∀ (i : Instr) (s t : State), Ready s → exec i s = .next t → writesResult i = true → operandError i s = none →
    (∀ c, i ≠ .unpack c) → t.result.toNat < 65536)

/-- Only SETORIENT and reset change ORIENT (R18). -/
def Obligations.OnlySetorientWritesOrient : Prop :=
  ∀ s t : State, step s = .next t → t.orient ≠ s.orient →
    (∃ w rest o, s.inputs = .portWrite cmdAddr w :: rest ∧ decode w = .command (.setorient o) ∧ t.orient = o) ∨
    (∃ rest, s.inputs = .reset :: rest)

/-- Contents the spec leaves unspecified cannot be observed: two states that differ only in them read the same at every
offset and step to states that again differ only in them (R23, R24, R29). -/
def Obligations.UnspecifiedContentsAreUnobservable : Prop :=
  ∀ s t : State, Inv s → SameVisible s t →
    (∀ a, portValue a t = portValue a s) ∧
    (∀ s', step s = .next s' → ∃ t', step t = .next t' ∧ SameVisible s' t') ∧
    (∀ r, step s = .refused r → step t = .refused r)

/-! ## Reset, the sink and the invariant -/

/-- Reset sets every piece of state for which R161 gives a value, stops a scroll and clears the fault; it emits no frame
and removes none (R161). What it leaves in the contents R161 calls unspecified is the model's choice
(notes/assumptions/7.md), and nothing is said of it here. -/
def Obligations.ResetValues : Prop :=
  ∀ (s : State) (rest : List Input), s.inputs = .reset :: rest →
    ∃ t, step s = .next t ∧ (∀ j, cell t.fb j = 0x0000) ∧ t.orient = .up ∧ t.fg = 0 ∧ t.bg = 0 ∧ t.delay = 0 ∧
      t.result = 0 ∧ t.scnt.val = 0 ∧ t.sovf = false ∧ t.strlen = 0 ∧ t.err = .none ∧ t.fault = false ∧
      t.seq.phase = .idle ∧ t.busy = false ∧ t.frames = s.frames ∧ t.strcap = s.strcap ∧ (∀ a, byteOffset a = 0x004 → portValue a t = 0)

/-- A sink is attached once. The device sink's region then holds 128 zero bytes; a second attach is refused, since
opening the same device twice is unsupported (R57, R159). That a sink is attached by an input, and that a second attach
of either kind is refused, is the model's choice (notes/assumptions/9.md). -/
def Obligations.AttachZeroesTheRegion : Prop :=
  ∀ (s : State) (k : SinkKind) (rest : List Input), s.inputs = .attach k :: rest →
    (s.sink = .unattached → ∃ t, step s = .next t ∧
      t = { s with inputs := rest, sink := .attached k, region := t.region, received := t.received } ∧
      (∀ a, Memory.read t.region a = 0) ∧ t.received = []) ∧
    (s.sink ≠ .unattached → step s = .refused .sinkAlreadyAttached)

/-- The invariant holds right after reset, for every STRCAP whose count a 32-bit read can show (R6, R24, R161). -/
def Obligations.InvariantAtReset : Prop :=
  Inv State.reset ∧ ∀ strcap, strcap < 2 ^ 32 → Inv (State.resetWith strcap)

/-- Every step keeps the invariant: FAULT exactly with ERR = ANGLE and never during a scroll, the sequencer within the
string, the string within STRBUF's STRCAP entries, the sequencer's counter within the delay, the loaded glyph the current character's, a dropped pixel only from a full
buffer, and the sink's side in step with the output stream (R24, R29, R57, R58, R94, R133, R149, R150). What the clauses
about the sink's side come to across a reset, which leaves the sink alone (notes/assumptions/14.md), and across an
attach, which is an input (notes/assumptions/9.md), is the model's choice. -/
def Obligations.StepKeepsTheInvariant : Prop :=
  ∀ s t : State, Inv s → step s = .next t → Inv t

/-- The block never stops, and no step changes STRCAP: every port access, tick and reset answers a next state (R41, R43,
R68, R151). It is the model's choice that FAULT = 1 is a next state (notes/assumptions/12.md), and that a second attach of
a sink of either kind is refused (notes/assumptions/9.md). -/
def Obligations.StepsNeverStop : Prop :=
  ∀ s : State, (∃ t, step s = .next t ∧ t.strcap = s.strcap) ∨
    (∃ k rest, s.inputs = .attach k :: rest ∧ s.sink ≠ .unattached ∧ step s = .refused .sinkAlreadyAttached)
end

