-- ==== Sys2Proof/Laws/Encoding.lean ====
section
/-! SUPPORT. The fields of an encoded word, its reserved bits, and decoding a word whose opcode and reserved bits are known. -/

namespace Sys2Proof

/-- A word's bits under a mask are zero when the field that covers the mask is. -/
theorem and_mask_eq_zero {w m : Word} (lo len : Nat) (h : w.extractLsb' lo len = 0)
    (hm : ∀ i : Fin 32, m.getLsbD i.val = true → lo ≤ i.val ∧ i.val < lo + len) : w &&& m = 0 := by
  apply BitVec.eq_of_getLsbD_eq
  intro i hi
  rw [BitVec.getLsbD_and]
  by_cases hb : m.getLsbD i = true
  · have hb' : lo ≤ i ∧ i < lo + len := hm ⟨i, hi⟩ hb
    have h1 : i - lo < len := by omega
    have h2 : lo + (i - lo) = i := by omega
    have hf := congrArg (fun v => v.getLsbD (i - lo)) h
    simp only [BitVec.getLsbD_extractLsb', h1, h2] at hf
    simp at hf
    simp [hf]
  · simp [hb]

/-- Decoding a word whose opcode has a format, with its reserved bits zero. -/
theorem decode_of_format {w : Word} {op : BitVec 5} {f : Format} (ho : opField w = op)
    (hf : formatOf op.toNat = some f) (hr : w &&& reservedMask f = 0) : decode w = commandOf op.toNat w := by
  subst ho
  simp [decode, hf, hr]

/-! ## The fields of an encoded word -/

theorem fields_encN (op : BitVec 5) : opField (encN op) = op ∧ encN op &&& reservedMask .n = 0 := by
  refine ⟨?_, and_mask_eq_zero 0 27 ?_ (by decide)⟩ <;>
    simp only [opField, encN, BitVec.extractLsb'_append_eq_ite] <;> simp

theorem fields_encP (op : BitVec 5) (x y : Nat) (c : Colour) :
    opField (encP op x y c) = op ∧ xField (encP op x y c) = x % 16 ∧ yField (encP op x y c) = y % 16 ∧
    colorField (encP op x y c) = c ∧ encP op x y c &&& reservedMask .p = 0 := by
  refine ⟨?_, ?_, ?_, ?_, and_mask_eq_zero 16 3 ?_ (by decide)⟩ <;>
    simp only [opField, xField, yField, colorField, encP, BitVec.extractLsb'_append_eq_ite] <;> simp

theorem fields_encQ (op : BitVec 5) (x y : Nat) :
    opField (encQ op x y) = op ∧ xField (encQ op x y) = x % 16 ∧ yField (encQ op x y) = y % 16 ∧
    encQ op x y &&& reservedMask .q = 0 := by
  refine ⟨?_, ?_, ?_, and_mask_eq_zero 0 19 ?_ (by decide)⟩ <;>
    simp only [opField, xField, yField, encQ, BitVec.extractLsb'_append_eq_ite] <;> simp

theorem fields_encC (op : BitVec 5) (c : Colour) :
    opField (encC op c) = op ∧ colorField (encC op c) = c ∧ encC op c &&& reservedMask .c = 0 := by
  refine ⟨?_, ?_, and_mask_eq_zero 16 11 ?_ (by decide)⟩ <;>
    simp only [opField, colorField, encC, BitVec.extractLsb'_append_eq_ite] <;> simp

theorem fields_encA (op : BitVec 5) (deg : Int) :
    opField (encA op deg) = op ∧ degField (encA op deg) = deg.bmod 65536 ∧ encA op deg &&& reservedMask .a = 0 := by
  refine ⟨?_, ?_, and_mask_eq_zero 16 11 ?_ (by decide)⟩ <;>
    simp only [opField, degField, encA, BitVec.extractLsb'_append_eq_ite] <;> simp [BitVec.toInt_ofInt]

theorem fields_encO (op : BitVec 5) (o : Orientation) :
    opField (encO op o) = op ∧ orientField (encO op o) = o ∧ encO op o &&& reservedMask .o = 0 := by
  refine ⟨?_, ?_, and_mask_eq_zero 2 25 ?_ (by decide)⟩ <;>
    simp only [opField, orientField, encO, BitVec.extractLsb'_append_eq_ite] <;> simp
  cases o <;> rfl

theorem fields_encU (op : BitVec 5) (cp : Codepoint) :
    opField (encU op cp) = op ∧ cpField (encU op cp) = cp ∧ encU op cp &&& reservedMask .u = 0 := by
  refine ⟨?_, ?_, and_mask_eq_zero 21 6 ?_ (by decide)⟩ <;>
    simp only [opField, cpField, encU, BitVec.extractLsb'_append_eq_ite] <;> simp

theorem fields_encB (op : BitVec 5) (r g b : Byte) :
    opField (encB op r g b) = op ∧ byte0Field (encB op r g b) = r ∧ byte1Field (encB op r g b) = g ∧
    byte2Field (encB op r g b) = b ∧ encB op r g b &&& reservedMask .b = 0 := by
  refine ⟨?_, ?_, ?_, ?_, and_mask_eq_zero 24 3 ?_ (by decide)⟩ <;>
    simp only [opField, byte0Field, byte1Field, byte2Field, encB, BitVec.extractLsb'_append_eq_ite] <;> simp

theorem fields_encI (op : BitVec 5) (sel : BitVec 3) (v : Byte) (c : Colour) :
    opField (encI op sel v c) = op ∧ selField (encI op sel v c) = sel ∧ byte2Field (encI op sel v c) = v ∧
    colorField (encI op sel v c) = c ∧ encI op sel v c &&& reservedMask .i = 0 := by
  refine ⟨?_, ?_, ?_, ?_, by simp [reservedMask]⟩ <;>
    simp only [opField, selField, byte2Field, colorField, encI, BitVec.extractLsb'_append_eq_ite] <;> simp
end Sys2Proof
end

