-- ==== Sys2Proof/Laws/Frame.lean ====
section
/-! SUPPORT. The mux and its inverse, the cells of a built, shifted or transformed frame, and of a glyph blob. -/

namespace Sys2Proof.Machine

@[simp] theorem colOf_cellIdx (x y : Fin 8) : colOf (cellIdx x y) = x := by
  ext; simp only [colOf, cellIdx]; omega

@[simp] theorem rowOf_cellIdx (x y : Fin 8) : rowOf (cellIdx x y) = y := by
  ext; simp only [rowOf, cellIdx]; omega

@[simp] theorem cellIdx_colOf_rowOf (i : Fin 64) : cellIdx (colOf i) (rowOf i) = i := by
  ext; simp only [colOf, rowOf, cellIdx]; omega

@[simp] theorem mirror_mirror (x : Fin 8) : mirror (mirror x) = x := by
  ext; simp only [mirror]; omega

/-- The mux and its inverse, one way. -/
@[simp] theorem logicalOf_idx (o : Orientation) (x y : Fin 8) : logicalOf o (idx o x y) = (x, y) := by
  cases o <;> simp only [logicalOf, idx, colOf, rowOf, mirror, Prod.mk.injEq, Fin.ext_iff] <;> omega

/-- The mux and its inverse, the other way. -/
@[simp] theorem idx_logicalOf (o : Orientation) (i : Fin 64) : idx o (logicalOf o i).1 (logicalOf o i).2 = i := by
  cases o <;> simp only [logicalOf, idx, colOf, rowOf, mirror, Fin.ext_iff] <;> omega

/-- Every native cell is the cell of one logical (x, y). -/
theorem exists_idx (o : Orientation) (i : Fin 64) : ∃ x y, idx o x y = i := ⟨_, _, idx_logicalOf o i⟩

theorem idx_eq_idx {o : Orientation} {x y x' y' : Fin 8} (h : idx o x y = idx o x' y') : x = x' ∧ y = y' := by
  have := congrArg (logicalOf o) h
  simpa using this

/-- The up mapping is the native index (R84). -/
theorem idx_up (x y : Fin 8) : idx .up x y = cellIdx x y := by
  ext; simp only [idx, cellIdx]; omega

/-- Two frames are equal when they agree on every native (x, y). -/
theorem frame_ext_native {b b' : Frame} (h : ∀ x y, cellAt b x y = cellAt b' x y) : b = b' := by
  apply Vector.ext
  intro i hi
  have := h (colOf ⟨i, hi⟩) (rowOf ⟨i, hi⟩)
  simpa [cellAt, cell] using this

/-- Two frames are equal when they agree on every logical (x, y) of one orientation. -/
theorem frame_ext_logical (o : Orientation) {b b' : Frame} (h : ∀ x y, cell b (idx o x y) = cell b' (idx o x y)) : b = b' := by
  apply Vector.ext
  intro i hi
  have := h (logicalOf o ⟨i, hi⟩).1 (logicalOf o ⟨i, hi⟩).2
  simpa [cell] using this

@[simp] theorem cellAt_buildNative (f : Fin 8 → Fin 8 → Colour) (x y : Fin 8) : cellAt (buildNative f) x y = f x y := by
  have h : cell (buildNative f) (cellIdx x y) = f (colOf (cellIdx x y)) (rowOf (cellIdx x y)) := by
    simp [cell, buildNative]
  simpa [cellAt] using h

@[simp] theorem buildLogical_idx (o : Orientation) (f : Fin 8 → Fin 8 → Colour) (x y : Fin 8) :
    cell (buildLogical o f) (idx o x y) = f x y := by
  have h : cell (buildLogical o f) (idx o x y) = f (logicalOf o (idx o x y)).1 (logicalOf o (idx o x y)).2 := by
    simp [cell, buildLogical]
  simpa using h

@[simp] theorem setCell_self (b : Frame) (i : Fin 64) (c : Colour) : cell (setCell b i c) i = c := by
  simp [cell, setCell]

theorem setCell_other (b : Frame) (c : Colour) {i j : Fin 64} (h : j ≠ i) : cell (setCell b i c) j = cell b j := by
  have : i.val ≠ j.val := fun e => h (Fin.ext e.symm)
  simp [cell, setCell, this]

/-- Writing the cells one after another leaves the same frame: each index is written once (R90). -/
theorem buildLogical_eq_writes (o : Orientation) (f : Fin 8 → Fin 8 → Colour) (b : Frame) :
    (List.finRange 8 ×ˢ List.finRange 8).foldl (fun b p => setCell b (idx o p.1 p.2) (f p.1 p.2)) b = buildLogical o f := by
  apply frame_ext_logical o
  intro x y
  have key : ∀ (l : List (Fin 8 × Fin 8)) (b : Frame),
      cell (l.foldl (fun b p => setCell b (idx o p.1 p.2) (f p.1 p.2)) b) (idx o x y)
        = if (x, y) ∈ l then f x y else cell b (idx o x y) := by
    intro l
    induction l with
    | nil => intro b; simp
    | cons p l ih =>
      intro b
      obtain ⟨px, py⟩ := p
      rw [List.foldl_cons, ih]
      by_cases hl : (x, y) ∈ l
      · simp [hl]
      · by_cases hp : (x, y) = (px, py)
        · obtain ⟨rfl, rfl⟩ := Prod.mk.inj hp
          simp [hl]
        · have hne : idx o x y ≠ idx o px py := fun e => hp (by obtain ⟨h1, h2⟩ := idx_eq_idx e; rw [h1, h2])
          simp [hl, hp, setCell_other b _ hne]
  rw [key]
  simp

/-! ## The shift -/

/-- Logical column x holds what column x + 1 held (R123). -/
theorem shiftIn_left (o : Orientation) (col : Fin 8 → Colour) (b : Frame) (x y : Fin 8) (h : x.val < 7) :
    cell (shiftIn o col b) (idx o x y) = cell b (idx o ⟨x.val + 1, by omega⟩ y) := by
  simp [shiftIn, h]

/-- Logical column 7 holds the inserted column (R123). -/
theorem shiftIn_last (o : Orientation) (col : Fin 8 → Colour) (b : Frame) (y : Fin 8) :
    cell (shiftIn o col b) (idx o 7 y) = col y := by
  simp [shiftIn]

/-! ## The transforms' cells -/

@[simp] theorem cellAt_transposed (b : Frame) (x y : Fin 8) : cellAt (transposed b) x y = cellAt b y x := by
  simp [transposed]

@[simp] theorem cellAt_reflectedV (b : Frame) (x y : Fin 8) : cellAt (reflectedV b) x y = cellAt b (mirror x) y := by
  simp [reflectedV]

@[simp] theorem cellAt_reflectedH (b : Frame) (x y : Fin 8) : cellAt (reflectedH b) x y = cellAt b x (mirror y) := by
  simp [reflectedH]

/-! ## The glyph blob -/

@[simp] theorem raster_cell (cp : Codepoint) (fg bg : Colour) (x y : Fin 8) :
    blobCell (raster cp fg bg) x y = rasterCell cp fg bg x y := by
  simp [blobCell, raster]

end Sys2Proof.Machine
end

