-- ==== Sys2Proof/Laws/Memory.lean ====
section
/-! SUPPORT. The byte memory: the canonical form is kept, and what a read gives after a write. -/

namespace Sys2Proof.Machine

theorem Memory.wfFrom_mono {m : Memory} {lo lo' : Nat} (h : lo' ≤ lo) (w : Memory.wfFrom lo m = true) :
    Memory.wfFrom lo' m = true := by
  cases m with
  | nil => rfl
  | cons e m =>
    obtain ⟨b, v⟩ := e
    simp only [Memory.wfFrom, Bool.and_eq_true, decide_eq_true_eq] at w ⊢
    exact ⟨⟨by omega, w.1.2⟩, w.2⟩

/-- An address below every listed one reads as unlisted. -/
theorem Memory.read_below {m : Memory} {lo a : Nat} (w : Memory.wfFrom lo m = true) (h : a < lo) :
    Memory.read m a = Memory.unlisted := by
  induction m generalizing lo with
  | nil => rfl
  | cons e m ih =>
    obtain ⟨b, v⟩ := e
    simp only [Memory.wfFrom, Bool.and_eq_true, decide_eq_true_eq] at w
    have hab : a ≠ b := by omega
    simpa [Memory.read, hab] using ih w.2 (by omega)

theorem Memory.wfFrom_write {m : Memory} {lo a : Nat} (v : Byte) (w : Memory.wfFrom lo m = true) (h : lo ≤ a) :
    Memory.wfFrom lo (Memory.write m a v) = true := by
  induction m generalizing lo with
  | nil => by_cases hv : v = Memory.unlisted <;> simp [Memory.write, Memory.wfFrom, hv, h]
  | cons e m ih =>
    obtain ⟨b, u⟩ := e
    have w' := w
    simp only [Memory.wfFrom, Bool.and_eq_true, decide_eq_true_eq] at w'
    obtain ⟨⟨hlo, hu⟩, hm⟩ := w'
    unfold Memory.write
    split
    · split
      · exact w
      · simp only [Memory.wfFrom, Bool.and_eq_true, decide_eq_true_eq]
        exact ⟨⟨h, ‹_›⟩, ⟨by omega, hu⟩, hm⟩
    · split
      · split
        · exact Memory.wfFrom_mono (by omega) hm
        · subst_vars
          simp only [Memory.wfFrom, Bool.and_eq_true, decide_eq_true_eq]
          exact ⟨⟨h, ‹_›⟩, hm⟩
      · simp only [Memory.wfFrom, Bool.and_eq_true, decide_eq_true_eq]
        exact ⟨⟨hlo, hu⟩, ih hm (by omega)⟩

theorem Memory.wf_write {m : Memory} (a : Nat) (v : Byte) (w : Memory.wf m = true) :
    Memory.wf (Memory.write m a v) = true :=
  Memory.wfFrom_write v w (Nat.zero_le a)

theorem Memory.wf_writeBytes {m : Memory} (a : Nat) (vs : List Byte) (w : Memory.wf m = true) :
    Memory.wf (Memory.writeBytes m a vs) = true := by
  induction vs generalizing m a with
  | nil => exact w
  | cons v vs ih => exact ih (a + 1) (Memory.wf_write a v w)

theorem Memory.read_write_other {m : Memory} {a b : Nat} (v : Byte) (h : b ≠ a) :
    Memory.read (Memory.write m a v) b = Memory.read m b := by
  induction m with
  | nil => by_cases hv : v = Memory.unlisted <;> simp [Memory.write, Memory.read, hv, h]
  | cons e m ih =>
    obtain ⟨c, u⟩ := e
    unfold Memory.write
    split
    · split <;> simp [Memory.read, h]
    · split
      · subst_vars
        split <;> simp [Memory.read, h]
      · simp [Memory.read, ih]

theorem Memory.read_write_self {m : Memory} {lo : Nat} (a : Nat) (v : Byte) (w : Memory.wfFrom lo m = true) :
    Memory.read (Memory.write m a v) a = v := by
  induction m generalizing lo with
  | nil => by_cases hv : v = Memory.unlisted <;> simp [Memory.write, Memory.read, hv]
  | cons e m ih =>
    obtain ⟨c, u⟩ := e
    have w' := w
    simp only [Memory.wfFrom, Bool.and_eq_true, decide_eq_true_eq] at w'
    unfold Memory.write
    split
    · split
      · subst_vars
        have hc : a ≠ c := by omega
        simpa [Memory.read, hc] using Memory.read_below w'.2 (by omega)
      · simp [Memory.read]
    · split
      · split
        · subst_vars
          exact Memory.read_below w'.2 (by omega)
        · simp [Memory.read]
      · have hc : a ≠ c := by omega
        simpa [Memory.read, hc] using ih w'.2

/-- Bytes outside the stored range read as before. -/
theorem Memory.read_writeBytes_outside {m : Memory} {a b : Nat} {vs : List Byte} (h : b < a ∨ a + vs.length ≤ b) :
    Memory.read (Memory.writeBytes m a vs) b = Memory.read m b := by
  induction vs generalizing m a with
  | nil => rfl
  | cons v vs ih =>
    simp only [List.length_cons] at h
    simp only [Memory.writeBytes]
    rw [ih (by omega), Memory.read_write_other v (by omega)]

/-- Each byte of the stored range reads as stored. -/
theorem Memory.read_writeBytes {m : Memory} {a : Nat} {vs : List Byte} (w : Memory.wf m = true) {k : Nat}
    (h : k < vs.length) : Memory.read (Memory.writeBytes m a vs) (a + k) = vs[k] := by
  induction vs generalizing m a k with
  | nil => simp at h
  | cons v vs ih =>
    cases k with
    | zero =>
      simp only [Memory.writeBytes]
      rw [Memory.read_writeBytes_outside (by omega)]
      simpa using Memory.read_write_self a v w
    | succ k =>
      have := ih (a := a + 1) (Memory.wf_write a v w) (k := k) (by simpa using h)
      simpa [Memory.writeBytes, Nat.add_assoc, Nat.add_comm 1 k] using this

end Sys2Proof.Machine
end

