-- ==== Sys2Proof/Laws/State.lean ====
section
/-! SUPPORT. One lemma per field for each update of State that the meanings share. -/

namespace Sys2Proof.Machine

/-! ## The reset state -/

@[simp] theorem Seq.reset_phase : Seq.reset.phase = .idle := rfl
@[simp] theorem State.resetWith_fb (n : Nat) : (State.resetWith n).fb = Vector.replicate 64 0 := rfl
@[simp] theorem State.resetWith_orient (n : Nat) : (State.resetWith n).orient = .up := rfl
@[simp] theorem State.resetWith_fg (n : Nat) : (State.resetWith n).fg = 0 := rfl
@[simp] theorem State.resetWith_bg (n : Nat) : (State.resetWith n).bg = 0 := rfl
@[simp] theorem State.resetWith_delay (n : Nat) : (State.resetWith n).delay = 0 := rfl
@[simp] theorem State.resetWith_result (n : Nat) : (State.resetWith n).result = 0 := rfl
@[simp] theorem State.resetWith_scnt (n : Nat) : (State.resetWith n).scnt = 0 := rfl
@[simp] theorem State.resetWith_sovf (n : Nat) : (State.resetWith n).sovf = false := rfl
@[simp] theorem State.resetWith_strcap (n : Nat) : (State.resetWith n).strcap = n := rfl
@[simp] theorem State.resetWith_strbuf (n : Nat) : (State.resetWith n).strbuf = List.replicate n 0 := rfl
@[simp] theorem State.resetWith_strlen (n : Nat) : (State.resetWith n).strlen = 0 := rfl
@[simp] theorem State.resetWith_err (n : Nat) : (State.resetWith n).err = .none := rfl
@[simp] theorem State.resetWith_fault (n : Nat) : (State.resetWith n).fault = false := rfl
@[simp] theorem State.resetWith_seq (n : Nat) : (State.resetWith n).seq = Seq.reset := rfl
@[simp] theorem State.resetWith_frames (n : Nat) : (State.resetWith n).frames = [] := rfl
@[simp] theorem State.resetWith_sink (n : Nat) : (State.resetWith n).sink = .unattached := rfl
@[simp] theorem State.resetWith_region (n : Nat) : (State.resetWith n).region = [] := rfl
@[simp] theorem State.resetWith_received (n : Nat) : (State.resetWith n).received = [] := rfl
@[simp] theorem State.resetWith_inputs (n : Nat) : (State.resetWith n).inputs = [] := rfl
@[simp] theorem State.resetWith_replies (n : Nat) : (State.resetWith n).replies = [] := rfl

/-- The reset input leaves the block as right after the first reset, but for what is no state of the block (R161). -/
theorem hardReset_eq (s : State) : hardReset s = { State.resetWith s.strcap with
    frames := s.frames, sink := s.sink, region := s.region, received := s.received, inputs := s.inputs, replies := s.replies } :=
  rfl

/-! ## Emitting a frame -/

@[simp] theorem emit_fb (s : State) : (emit s).fb = s.fb := rfl
@[simp] theorem emit_orient (s : State) : (emit s).orient = s.orient := rfl
@[simp] theorem emit_fg (s : State) : (emit s).fg = s.fg := rfl
@[simp] theorem emit_bg (s : State) : (emit s).bg = s.bg := rfl
@[simp] theorem emit_delay (s : State) : (emit s).delay = s.delay := rfl
@[simp] theorem emit_result (s : State) : (emit s).result = s.result := rfl
@[simp] theorem emit_stage (s : State) : (emit s).stage = s.stage := rfl
@[simp] theorem emit_scnt (s : State) : (emit s).scnt = s.scnt := rfl
@[simp] theorem emit_sovf (s : State) : (emit s).sovf = s.sovf := rfl
@[simp] theorem emit_strcap (s : State) : (emit s).strcap = s.strcap := rfl
@[simp] theorem emit_strbuf (s : State) : (emit s).strbuf = s.strbuf := rfl
@[simp] theorem emit_strlen (s : State) : (emit s).strlen = s.strlen := rfl
@[simp] theorem emit_err (s : State) : (emit s).err = s.err := rfl
@[simp] theorem emit_fault (s : State) : (emit s).fault = s.fault := rfl
@[simp] theorem emit_seq (s : State) : (emit s).seq = s.seq := rfl
@[simp] theorem emit_frames (s : State) : (emit s).frames = s.frames ++ [s.fb] := rfl
@[simp] theorem emit_sink (s : State) : (emit s).sink = s.sink := rfl
@[simp] theorem emit_inputs (s : State) : (emit s).inputs = s.inputs := rfl
@[simp] theorem emit_replies (s : State) : (emit s).replies = s.replies := rfl

/-! ## Replacing the framebuffer and emitting -/

@[simp] theorem mutate_fb (b : Frame) (s : State) : (mutate b s).fb = b := rfl
@[simp] theorem mutate_orient (b : Frame) (s : State) : (mutate b s).orient = s.orient := rfl
@[simp] theorem mutate_fg (b : Frame) (s : State) : (mutate b s).fg = s.fg := rfl
@[simp] theorem mutate_bg (b : Frame) (s : State) : (mutate b s).bg = s.bg := rfl
@[simp] theorem mutate_delay (b : Frame) (s : State) : (mutate b s).delay = s.delay := rfl
@[simp] theorem mutate_result (b : Frame) (s : State) : (mutate b s).result = s.result := rfl
@[simp] theorem mutate_stage (b : Frame) (s : State) : (mutate b s).stage = s.stage := rfl
@[simp] theorem mutate_scnt (b : Frame) (s : State) : (mutate b s).scnt = s.scnt := rfl
@[simp] theorem mutate_sovf (b : Frame) (s : State) : (mutate b s).sovf = s.sovf := rfl
@[simp] theorem mutate_strcap (b : Frame) (s : State) : (mutate b s).strcap = s.strcap := rfl
@[simp] theorem mutate_strbuf (b : Frame) (s : State) : (mutate b s).strbuf = s.strbuf := rfl
@[simp] theorem mutate_strlen (b : Frame) (s : State) : (mutate b s).strlen = s.strlen := rfl
@[simp] theorem mutate_err (b : Frame) (s : State) : (mutate b s).err = s.err := rfl
@[simp] theorem mutate_fault (b : Frame) (s : State) : (mutate b s).fault = s.fault := rfl
@[simp] theorem mutate_seq (b : Frame) (s : State) : (mutate b s).seq = s.seq := rfl
@[simp] theorem mutate_frames (b : Frame) (s : State) : (mutate b s).frames = s.frames ++ [b] := rfl
@[simp] theorem mutate_sink (b : Frame) (s : State) : (mutate b s).sink = s.sink := rfl
@[simp] theorem mutate_inputs (b : Frame) (s : State) : (mutate b s).inputs = s.inputs := rfl
@[simp] theorem mutate_replies (b : Frame) (s : State) : (mutate b s).replies = s.replies := rfl

/-! ## The error procedure -/

@[simp] theorem raiseError_fb (c : ErrCode) (s : State) : (raiseError c s).fb = s.fb := rfl
@[simp] theorem raiseError_orient (c : ErrCode) (s : State) : (raiseError c s).orient = s.orient := rfl
@[simp] theorem raiseError_fg (c : ErrCode) (s : State) : (raiseError c s).fg = s.fg := rfl
@[simp] theorem raiseError_bg (c : ErrCode) (s : State) : (raiseError c s).bg = s.bg := rfl
@[simp] theorem raiseError_delay (c : ErrCode) (s : State) : (raiseError c s).delay = s.delay := rfl
@[simp] theorem raiseError_result (c : ErrCode) (s : State) : (raiseError c s).result = s.result := rfl
@[simp] theorem raiseError_stage (c : ErrCode) (s : State) : (raiseError c s).stage = s.stage := rfl
@[simp] theorem raiseError_scnt (c : ErrCode) (s : State) : (raiseError c s).scnt = s.scnt := rfl
@[simp] theorem raiseError_sovf (c : ErrCode) (s : State) : (raiseError c s).sovf = s.sovf := rfl
@[simp] theorem raiseError_strcap (c : ErrCode) (s : State) : (raiseError c s).strcap = s.strcap := rfl
@[simp] theorem raiseError_strbuf (c : ErrCode) (s : State) : (raiseError c s).strbuf = s.strbuf := rfl
@[simp] theorem raiseError_strlen (c : ErrCode) (s : State) : (raiseError c s).strlen = s.strlen := rfl
@[simp] theorem raiseError_err (c : ErrCode) (s : State) : (raiseError c s).err = c := rfl
@[simp] theorem raiseError_fault (c : ErrCode) (s : State) : (raiseError c s).fault = s.fault := rfl
@[simp] theorem raiseError_seq (c : ErrCode) (s : State) : (raiseError c s).seq = s.seq := rfl
@[simp] theorem raiseError_frames (c : ErrCode) (s : State) : (raiseError c s).frames = s.frames := rfl
@[simp] theorem raiseError_sink (c : ErrCode) (s : State) : (raiseError c s).sink = s.sink := rfl
@[simp] theorem raiseError_region (c : ErrCode) (s : State) : (raiseError c s).region = s.region := rfl
@[simp] theorem raiseError_received (c : ErrCode) (s : State) : (raiseError c s).received = s.received := rfl
@[simp] theorem raiseError_inputs (c : ErrCode) (s : State) : (raiseError c s).inputs = s.inputs := rfl
@[simp] theorem raiseError_replies (c : ErrCode) (s : State) : (raiseError c s).replies = s.replies := rfl

/-! ## The fault procedure -/

@[simp] theorem raiseFault_fb (c : ErrCode) (s : State) : (raiseFault c s).fb = s.fb := rfl
@[simp] theorem raiseFault_orient (c : ErrCode) (s : State) : (raiseFault c s).orient = s.orient := rfl
@[simp] theorem raiseFault_fg (c : ErrCode) (s : State) : (raiseFault c s).fg = s.fg := rfl
@[simp] theorem raiseFault_bg (c : ErrCode) (s : State) : (raiseFault c s).bg = s.bg := rfl
@[simp] theorem raiseFault_delay (c : ErrCode) (s : State) : (raiseFault c s).delay = s.delay := rfl
@[simp] theorem raiseFault_result (c : ErrCode) (s : State) : (raiseFault c s).result = s.result := rfl
@[simp] theorem raiseFault_stage (c : ErrCode) (s : State) : (raiseFault c s).stage = s.stage := rfl
@[simp] theorem raiseFault_scnt (c : ErrCode) (s : State) : (raiseFault c s).scnt = s.scnt := rfl
@[simp] theorem raiseFault_sovf (c : ErrCode) (s : State) : (raiseFault c s).sovf = s.sovf := rfl
@[simp] theorem raiseFault_strcap (c : ErrCode) (s : State) : (raiseFault c s).strcap = s.strcap := rfl
@[simp] theorem raiseFault_strbuf (c : ErrCode) (s : State) : (raiseFault c s).strbuf = s.strbuf := rfl
@[simp] theorem raiseFault_strlen (c : ErrCode) (s : State) : (raiseFault c s).strlen = s.strlen := rfl
@[simp] theorem raiseFault_err (c : ErrCode) (s : State) : (raiseFault c s).err = c := rfl
@[simp] theorem raiseFault_fault (c : ErrCode) (s : State) : (raiseFault c s).fault = true := rfl
@[simp] theorem raiseFault_seq (c : ErrCode) (s : State) : (raiseFault c s).seq = s.seq := rfl
@[simp] theorem raiseFault_frames (c : ErrCode) (s : State) : (raiseFault c s).frames = s.frames := rfl
@[simp] theorem raiseFault_sink (c : ErrCode) (s : State) : (raiseFault c s).sink = s.sink := rfl
@[simp] theorem raiseFault_region (c : ErrCode) (s : State) : (raiseFault c s).region = s.region := rfl
@[simp] theorem raiseFault_received (c : ErrCode) (s : State) : (raiseFault c s).received = s.received := rfl
@[simp] theorem raiseFault_inputs (c : ErrCode) (s : State) : (raiseFault c s).inputs = s.inputs := rfl
@[simp] theorem raiseFault_replies (c : ErrCode) (s : State) : (raiseFault c s).replies = s.replies := rfl

/-! ## The return from an error -/

@[simp] theorem clearError_fb (s : State) : (clearError s).fb = s.fb := rfl
@[simp] theorem clearError_orient (s : State) : (clearError s).orient = s.orient := rfl
@[simp] theorem clearError_fg (s : State) : (clearError s).fg = s.fg := rfl
@[simp] theorem clearError_bg (s : State) : (clearError s).bg = s.bg := rfl
@[simp] theorem clearError_delay (s : State) : (clearError s).delay = s.delay := rfl
@[simp] theorem clearError_result (s : State) : (clearError s).result = s.result := rfl
@[simp] theorem clearError_stage (s : State) : (clearError s).stage = s.stage := rfl
@[simp] theorem clearError_scnt (s : State) : (clearError s).scnt = s.scnt := rfl
@[simp] theorem clearError_sovf (s : State) : (clearError s).sovf = s.sovf := rfl
@[simp] theorem clearError_strcap (s : State) : (clearError s).strcap = s.strcap := rfl
@[simp] theorem clearError_strbuf (s : State) : (clearError s).strbuf = s.strbuf := rfl
@[simp] theorem clearError_strlen (s : State) : (clearError s).strlen = s.strlen := rfl
@[simp] theorem clearError_err (s : State) : (clearError s).err = .none := rfl
@[simp] theorem clearError_fault (s : State) : (clearError s).fault = s.fault := rfl
@[simp] theorem clearError_seq (s : State) : (clearError s).seq = s.seq := rfl
@[simp] theorem clearError_frames (s : State) : (clearError s).frames = s.frames := rfl
@[simp] theorem clearError_sink (s : State) : (clearError s).sink = s.sink := rfl
@[simp] theorem clearError_region (s : State) : (clearError s).region = s.region := rfl
@[simp] theorem clearError_received (s : State) : (clearError s).received = s.received := rfl
@[simp] theorem clearError_inputs (s : State) : (clearError s).inputs = s.inputs := rfl
@[simp] theorem clearError_replies (s : State) : (clearError s).replies = s.replies := rfl

/-! ## Writing RESULT -/

@[simp] theorem putResult_fb (c : Colour) (s : State) : (putResult c s).fb = s.fb := rfl
@[simp] theorem putResult_orient (c : Colour) (s : State) : (putResult c s).orient = s.orient := rfl
@[simp] theorem putResult_fg (c : Colour) (s : State) : (putResult c s).fg = s.fg := rfl
@[simp] theorem putResult_bg (c : Colour) (s : State) : (putResult c s).bg = s.bg := rfl
@[simp] theorem putResult_delay (c : Colour) (s : State) : (putResult c s).delay = s.delay := rfl
@[simp] theorem putResult_result (c : Colour) (s : State) : (putResult c s).result = c.zeroExtend 32 := rfl
@[simp] theorem putResult_stage (c : Colour) (s : State) : (putResult c s).stage = s.stage := rfl
@[simp] theorem putResult_scnt (c : Colour) (s : State) : (putResult c s).scnt = s.scnt := rfl
@[simp] theorem putResult_sovf (c : Colour) (s : State) : (putResult c s).sovf = s.sovf := rfl
@[simp] theorem putResult_strcap (c : Colour) (s : State) : (putResult c s).strcap = s.strcap := rfl
@[simp] theorem putResult_strbuf (c : Colour) (s : State) : (putResult c s).strbuf = s.strbuf := rfl
@[simp] theorem putResult_strlen (c : Colour) (s : State) : (putResult c s).strlen = s.strlen := rfl
@[simp] theorem putResult_err (c : Colour) (s : State) : (putResult c s).err = s.err := rfl
@[simp] theorem putResult_fault (c : Colour) (s : State) : (putResult c s).fault = s.fault := rfl
@[simp] theorem putResult_seq (c : Colour) (s : State) : (putResult c s).seq = s.seq := rfl
@[simp] theorem putResult_frames (c : Colour) (s : State) : (putResult c s).frames = s.frames := rfl
@[simp] theorem putResult_sink (c : Colour) (s : State) : (putResult c s).sink = s.sink := rfl
@[simp] theorem putResult_region (c : Colour) (s : State) : (putResult c s).region = s.region := rfl
@[simp] theorem putResult_received (c : Colour) (s : State) : (putResult c s).received = s.received := rfl
@[simp] theorem putResult_inputs (c : Colour) (s : State) : (putResult c s).inputs = s.inputs := rfl
@[simp] theorem putResult_replies (c : Colour) (s : State) : (putResult c s).replies = s.replies := rfl

/-! ## Emptying the staging buffer -/

@[simp] theorem clearStage_fb (s : State) : (clearStage s).fb = s.fb := rfl
@[simp] theorem clearStage_orient (s : State) : (clearStage s).orient = s.orient := rfl
@[simp] theorem clearStage_fg (s : State) : (clearStage s).fg = s.fg := rfl
@[simp] theorem clearStage_bg (s : State) : (clearStage s).bg = s.bg := rfl
@[simp] theorem clearStage_delay (s : State) : (clearStage s).delay = s.delay := rfl
@[simp] theorem clearStage_result (s : State) : (clearStage s).result = s.result := rfl
@[simp] theorem clearStage_stage (s : State) : (clearStage s).stage = s.stage := rfl
@[simp] theorem clearStage_scnt (s : State) : (clearStage s).scnt = 0 := rfl
@[simp] theorem clearStage_sovf (s : State) : (clearStage s).sovf = false := rfl
@[simp] theorem clearStage_strcap (s : State) : (clearStage s).strcap = s.strcap := rfl
@[simp] theorem clearStage_strbuf (s : State) : (clearStage s).strbuf = s.strbuf := rfl
@[simp] theorem clearStage_strlen (s : State) : (clearStage s).strlen = s.strlen := rfl
@[simp] theorem clearStage_err (s : State) : (clearStage s).err = s.err := rfl
@[simp] theorem clearStage_fault (s : State) : (clearStage s).fault = s.fault := rfl
@[simp] theorem clearStage_seq (s : State) : (clearStage s).seq = s.seq := rfl
@[simp] theorem clearStage_frames (s : State) : (clearStage s).frames = s.frames := rfl
@[simp] theorem clearStage_sink (s : State) : (clearStage s).sink = s.sink := rfl
@[simp] theorem clearStage_region (s : State) : (clearStage s).region = s.region := rfl
@[simp] theorem clearStage_received (s : State) : (clearStage s).received = s.received := rfl
@[simp] theorem clearStage_inputs (s : State) : (clearStage s).inputs = s.inputs := rfl
@[simp] theorem clearStage_replies (s : State) : (clearStage s).replies = s.replies := rfl

/-! ## The end of a scroll -/

@[simp] theorem completeScroll_fb (s : State) : (completeScroll s).fb = s.fb := rfl
@[simp] theorem completeScroll_orient (s : State) : (completeScroll s).orient = s.orient := rfl
@[simp] theorem completeScroll_fg (s : State) : (completeScroll s).fg = s.fg := rfl
@[simp] theorem completeScroll_bg (s : State) : (completeScroll s).bg = s.bg := rfl
@[simp] theorem completeScroll_delay (s : State) : (completeScroll s).delay = s.delay := rfl
@[simp] theorem completeScroll_result (s : State) : (completeScroll s).result = s.result := rfl
@[simp] theorem completeScroll_stage (s : State) : (completeScroll s).stage = s.stage := rfl
@[simp] theorem completeScroll_scnt (s : State) : (completeScroll s).scnt = s.scnt := rfl
@[simp] theorem completeScroll_sovf (s : State) : (completeScroll s).sovf = s.sovf := rfl
@[simp] theorem completeScroll_strcap (s : State) : (completeScroll s).strcap = s.strcap := rfl
@[simp] theorem completeScroll_strbuf (s : State) : (completeScroll s).strbuf = s.strbuf := rfl
@[simp] theorem completeScroll_strlen (s : State) : (completeScroll s).strlen = 0 := rfl
@[simp] theorem completeScroll_err (s : State) : (completeScroll s).err = s.err := rfl
@[simp] theorem completeScroll_fault (s : State) : (completeScroll s).fault = s.fault := rfl
@[simp] theorem completeScroll_frames (s : State) : (completeScroll s).frames = s.frames := rfl
@[simp] theorem completeScroll_sink (s : State) : (completeScroll s).sink = s.sink := rfl
@[simp] theorem completeScroll_region (s : State) : (completeScroll s).region = s.region := rfl
@[simp] theorem completeScroll_received (s : State) : (completeScroll s).received = s.received := rfl
@[simp] theorem completeScroll_inputs (s : State) : (completeScroll s).inputs = s.inputs := rfl
@[simp] theorem completeScroll_replies (s : State) : (completeScroll s).replies = s.replies := rfl

@[simp] theorem completeScroll_phase (s : State) : (completeScroll s).seq.phase = .idle := rfl

/-! ## A column step -/

@[simp] theorem columnStep_orient (s : State) : (columnStep s).orient = s.orient := by simp only [columnStep, mutate_orient]
@[simp] theorem columnStep_fg (s : State) : (columnStep s).fg = s.fg := by simp only [columnStep, mutate_fg]
@[simp] theorem columnStep_bg (s : State) : (columnStep s).bg = s.bg := by simp only [columnStep, mutate_bg]
@[simp] theorem columnStep_delay (s : State) : (columnStep s).delay = s.delay := by simp only [columnStep, mutate_delay]
@[simp] theorem columnStep_result (s : State) : (columnStep s).result = s.result := by simp only [columnStep, mutate_result]
@[simp] theorem columnStep_stage (s : State) : (columnStep s).stage = s.stage := by simp only [columnStep, mutate_stage]
@[simp] theorem columnStep_scnt (s : State) : (columnStep s).scnt = s.scnt := by simp only [columnStep, mutate_scnt]
@[simp] theorem columnStep_sovf (s : State) : (columnStep s).sovf = s.sovf := by simp only [columnStep, mutate_sovf]
@[simp] theorem columnStep_strcap (s : State) : (columnStep s).strcap = s.strcap := by simp only [columnStep, mutate_strcap]
@[simp] theorem columnStep_strbuf (s : State) : (columnStep s).strbuf = s.strbuf := by simp only [columnStep, mutate_strbuf]
@[simp] theorem columnStep_strlen (s : State) : (columnStep s).strlen = s.strlen := by simp only [columnStep, mutate_strlen]
@[simp] theorem columnStep_err (s : State) : (columnStep s).err = s.err := by simp only [columnStep, mutate_err]
@[simp] theorem columnStep_fault (s : State) : (columnStep s).fault = s.fault := by simp only [columnStep, mutate_fault]
@[simp] theorem columnStep_seq (s : State) : (columnStep s).seq = s.seq := by simp only [columnStep, mutate_seq]
@[simp] theorem columnStep_frames (s : State) : (columnStep s).frames = s.frames ++ [(columnStep s).fb] := by
  simp only [columnStep, mutate_frames, mutate_fb]
@[simp] theorem columnStep_sink (s : State) : (columnStep s).sink = s.sink := by simp only [columnStep, mutate_sink]
@[simp] theorem columnStep_inputs (s : State) : (columnStep s).inputs = s.inputs := by simp only [columnStep, mutate_inputs]
@[simp] theorem columnStep_replies (s : State) : (columnStep s).replies = s.replies := by simp only [columnStep, mutate_replies]

/-! ## Loading a glyph -/

@[simp] theorem loadGlyph_fb (s : State) : (loadGlyph s).fb = s.fb := by unfold loadGlyph; split <;> rfl
@[simp] theorem loadGlyph_orient (s : State) : (loadGlyph s).orient = s.orient := by unfold loadGlyph; split <;> rfl
@[simp] theorem loadGlyph_fg (s : State) : (loadGlyph s).fg = s.fg := by unfold loadGlyph; split <;> rfl
@[simp] theorem loadGlyph_bg (s : State) : (loadGlyph s).bg = s.bg := by unfold loadGlyph; split <;> rfl
@[simp] theorem loadGlyph_delay (s : State) : (loadGlyph s).delay = s.delay := by unfold loadGlyph; split <;> rfl
@[simp] theorem loadGlyph_result (s : State) : (loadGlyph s).result = s.result := by unfold loadGlyph; split <;> rfl
@[simp] theorem loadGlyph_stage (s : State) : (loadGlyph s).stage = s.stage := by unfold loadGlyph; split <;> rfl
@[simp] theorem loadGlyph_scnt (s : State) : (loadGlyph s).scnt = s.scnt := by unfold loadGlyph; split <;> rfl
@[simp] theorem loadGlyph_sovf (s : State) : (loadGlyph s).sovf = s.sovf := by unfold loadGlyph; split <;> rfl
@[simp] theorem loadGlyph_strcap (s : State) : (loadGlyph s).strcap = s.strcap := by unfold loadGlyph; split <;> rfl
@[simp] theorem loadGlyph_strbuf (s : State) : (loadGlyph s).strbuf = s.strbuf := by unfold loadGlyph; split <;> rfl
@[simp] theorem loadGlyph_strlen (s : State) : (loadGlyph s).strlen = s.strlen := by unfold loadGlyph; split <;> rfl
@[simp] theorem loadGlyph_err (s : State) : (loadGlyph s).err = s.err := by unfold loadGlyph; split <;> rfl
@[simp] theorem loadGlyph_fault (s : State) : (loadGlyph s).fault = s.fault := by unfold loadGlyph; split <;> rfl
@[simp] theorem loadGlyph_frames (s : State) : (loadGlyph s).frames = s.frames := by unfold loadGlyph; split <;> rfl
@[simp] theorem loadGlyph_sink (s : State) : (loadGlyph s).sink = s.sink := by unfold loadGlyph; split <;> rfl
@[simp] theorem loadGlyph_region (s : State) : (loadGlyph s).region = s.region := by unfold loadGlyph; split <;> rfl
@[simp] theorem loadGlyph_received (s : State) : (loadGlyph s).received = s.received := by unfold loadGlyph; split <;> rfl
@[simp] theorem loadGlyph_inputs (s : State) : (loadGlyph s).inputs = s.inputs := by unfold loadGlyph; split <;> rfl
@[simp] theorem loadGlyph_replies (s : State) : (loadGlyph s).replies = s.replies := by unfold loadGlyph; split <;> rfl

/-! ## Advancing the sequencer -/

@[simp] theorem advanceScroll_fb (s : State) : (advanceScroll s).fb = s.fb := by unfold advanceScroll; split <;> [rfl; split <;> rfl]
@[simp] theorem advanceScroll_orient (s : State) : (advanceScroll s).orient = s.orient := by unfold advanceScroll; split <;> [rfl; split <;> rfl]
@[simp] theorem advanceScroll_fg (s : State) : (advanceScroll s).fg = s.fg := by unfold advanceScroll; split <;> [rfl; split <;> rfl]
@[simp] theorem advanceScroll_bg (s : State) : (advanceScroll s).bg = s.bg := by unfold advanceScroll; split <;> [rfl; split <;> rfl]
@[simp] theorem advanceScroll_delay (s : State) : (advanceScroll s).delay = s.delay := by unfold advanceScroll; split <;> [rfl; split <;> rfl]
@[simp] theorem advanceScroll_result (s : State) : (advanceScroll s).result = s.result := by unfold advanceScroll; split <;> [rfl; split <;> rfl]
@[simp] theorem advanceScroll_stage (s : State) : (advanceScroll s).stage = s.stage := by unfold advanceScroll; split <;> [rfl; split <;> rfl]
@[simp] theorem advanceScroll_scnt (s : State) : (advanceScroll s).scnt = s.scnt := by unfold advanceScroll; split <;> [rfl; split <;> rfl]
@[simp] theorem advanceScroll_sovf (s : State) : (advanceScroll s).sovf = s.sovf := by unfold advanceScroll; split <;> [rfl; split <;> rfl]
@[simp] theorem advanceScroll_strcap (s : State) : (advanceScroll s).strcap = s.strcap := by unfold advanceScroll; split <;> [rfl; split <;> rfl]
@[simp] theorem advanceScroll_strbuf (s : State) : (advanceScroll s).strbuf = s.strbuf := by unfold advanceScroll; split <;> [rfl; split <;> rfl]
@[simp] theorem advanceScroll_err (s : State) : (advanceScroll s).err = s.err := by unfold advanceScroll; split <;> [rfl; split <;> rfl]
@[simp] theorem advanceScroll_fault (s : State) : (advanceScroll s).fault = s.fault := by unfold advanceScroll; split <;> [rfl; split <;> rfl]
@[simp] theorem advanceScroll_frames (s : State) : (advanceScroll s).frames = s.frames := by unfold advanceScroll; split <;> [rfl; split <;> rfl]
@[simp] theorem advanceScroll_sink (s : State) : (advanceScroll s).sink = s.sink := by unfold advanceScroll; split <;> [rfl; split <;> rfl]
@[simp] theorem advanceScroll_region (s : State) : (advanceScroll s).region = s.region := by unfold advanceScroll; split <;> [rfl; split <;> rfl]
@[simp] theorem advanceScroll_received (s : State) : (advanceScroll s).received = s.received := by unfold advanceScroll; split <;> [rfl; split <;> rfl]
@[simp] theorem advanceScroll_inputs (s : State) : (advanceScroll s).inputs = s.inputs := by unfold advanceScroll; split <;> [rfl; split <;> rfl]
@[simp] theorem advanceScroll_replies (s : State) : (advanceScroll s).replies = s.replies := by unfold advanceScroll; split <;> [rfl; split <;> rfl]

/-! ## Appending a codepoint -/

@[simp] theorem pushCodepoint_fb (cp : Codepoint) (s : State) : (pushCodepoint cp s).fb = s.fb := by unfold pushCodepoint; split <;> rfl
@[simp] theorem pushCodepoint_orient (cp : Codepoint) (s : State) : (pushCodepoint cp s).orient = s.orient := by unfold pushCodepoint; split <;> rfl
@[simp] theorem pushCodepoint_fg (cp : Codepoint) (s : State) : (pushCodepoint cp s).fg = s.fg := by unfold pushCodepoint; split <;> rfl
@[simp] theorem pushCodepoint_bg (cp : Codepoint) (s : State) : (pushCodepoint cp s).bg = s.bg := by unfold pushCodepoint; split <;> rfl
@[simp] theorem pushCodepoint_delay (cp : Codepoint) (s : State) : (pushCodepoint cp s).delay = s.delay := by unfold pushCodepoint; split <;> rfl
@[simp] theorem pushCodepoint_result (cp : Codepoint) (s : State) : (pushCodepoint cp s).result = s.result := by unfold pushCodepoint; split <;> rfl
@[simp] theorem pushCodepoint_stage (cp : Codepoint) (s : State) : (pushCodepoint cp s).stage = s.stage := by unfold pushCodepoint; split <;> rfl
@[simp] theorem pushCodepoint_scnt (cp : Codepoint) (s : State) : (pushCodepoint cp s).scnt = s.scnt := by unfold pushCodepoint; split <;> rfl
@[simp] theorem pushCodepoint_sovf (cp : Codepoint) (s : State) : (pushCodepoint cp s).sovf = s.sovf := by unfold pushCodepoint; split <;> rfl
@[simp] theorem pushCodepoint_strcap (cp : Codepoint) (s : State) : (pushCodepoint cp s).strcap = s.strcap := by unfold pushCodepoint; split <;> rfl
@[simp] theorem pushCodepoint_fault (cp : Codepoint) (s : State) : (pushCodepoint cp s).fault = s.fault := by unfold pushCodepoint; split <;> rfl
@[simp] theorem pushCodepoint_seq (cp : Codepoint) (s : State) : (pushCodepoint cp s).seq = s.seq := by unfold pushCodepoint; split <;> rfl
@[simp] theorem pushCodepoint_frames (cp : Codepoint) (s : State) : (pushCodepoint cp s).frames = s.frames := by unfold pushCodepoint; split <;> rfl
@[simp] theorem pushCodepoint_sink (cp : Codepoint) (s : State) : (pushCodepoint cp s).sink = s.sink := by unfold pushCodepoint; split <;> rfl
@[simp] theorem pushCodepoint_region (cp : Codepoint) (s : State) : (pushCodepoint cp s).region = s.region := by unfold pushCodepoint; split <;> rfl
@[simp] theorem pushCodepoint_received (cp : Codepoint) (s : State) : (pushCodepoint cp s).received = s.received := by unfold pushCodepoint; split <;> rfl
@[simp] theorem pushCodepoint_inputs (cp : Codepoint) (s : State) : (pushCodepoint cp s).inputs = s.inputs := by unfold pushCodepoint; split <;> rfl
@[simp] theorem pushCodepoint_replies (cp : Codepoint) (s : State) : (pushCodepoint cp s).replies = s.replies := by unfold pushCodepoint; split <;> rfl

/-! ## Starting a scroll -/

@[simp] theorem startScroll_fb (s : State) : (startScroll s).fb = s.fb := by unfold startScroll; split <;> rfl
@[simp] theorem startScroll_orient (s : State) : (startScroll s).orient = s.orient := by unfold startScroll; split <;> rfl
@[simp] theorem startScroll_fg (s : State) : (startScroll s).fg = s.fg := by unfold startScroll; split <;> rfl
@[simp] theorem startScroll_bg (s : State) : (startScroll s).bg = s.bg := by unfold startScroll; split <;> rfl
@[simp] theorem startScroll_delay (s : State) : (startScroll s).delay = s.delay := by unfold startScroll; split <;> rfl
@[simp] theorem startScroll_result (s : State) : (startScroll s).result = s.result := by unfold startScroll; split <;> rfl
@[simp] theorem startScroll_stage (s : State) : (startScroll s).stage = s.stage := by unfold startScroll; split <;> rfl
@[simp] theorem startScroll_scnt (s : State) : (startScroll s).scnt = s.scnt := by unfold startScroll; split <;> rfl
@[simp] theorem startScroll_sovf (s : State) : (startScroll s).sovf = s.sovf := by unfold startScroll; split <;> rfl
@[simp] theorem startScroll_strcap (s : State) : (startScroll s).strcap = s.strcap := by unfold startScroll; split <;> rfl
@[simp] theorem startScroll_strbuf (s : State) : (startScroll s).strbuf = s.strbuf := by unfold startScroll; split <;> rfl
@[simp] theorem startScroll_strlen (s : State) : (startScroll s).strlen = s.strlen := by unfold startScroll; split <;> rfl
@[simp] theorem startScroll_err (s : State) : (startScroll s).err = s.err := by unfold startScroll; split <;> rfl
@[simp] theorem startScroll_fault (s : State) : (startScroll s).fault = s.fault := by unfold startScroll; split <;> rfl
@[simp] theorem startScroll_frames (s : State) : (startScroll s).frames = s.frames := by unfold startScroll; split <;> rfl
@[simp] theorem startScroll_sink (s : State) : (startScroll s).sink = s.sink := by unfold startScroll; split <;> rfl
@[simp] theorem startScroll_region (s : State) : (startScroll s).region = s.region := by unfold startScroll; split <;> rfl
@[simp] theorem startScroll_received (s : State) : (startScroll s).received = s.received := by unfold startScroll; split <;> rfl
@[simp] theorem startScroll_inputs (s : State) : (startScroll s).inputs = s.inputs := by unfold startScroll; split <;> rfl
@[simp] theorem startScroll_replies (s : State) : (startScroll s).replies = s.replies := by unfold startScroll; split <;> rfl

end Sys2Proof.Machine
end

