-- ==== Sys2Proof/Laws/Ops.lean ====
section
/-! SUPPORT. One lemma for what each shared operation can do. -/

namespace Sys2Proof.Machine

/-! ## BUSY and the guard -/

theorem busy_eq_false_iff (s : State) : s.busy = false ↔ s.seq.phase = .idle := by
  unfold State.busy; split <;> simp_all

theorem busy_eq_true_iff (s : State) : s.busy = true ↔ s.seq.phase ≠ .idle := by
  unfold State.busy; split <;> simp_all

theorem Ready.busy {s : State} (h : Ready s) : s.busy = false := (busy_eq_false_iff s).2 h.2

/-- The three things the guard can do. -/
theorem guarded_cases (s : State) (body : State → State) :
    (s.fault = true ∧ guarded s body = s) ∨
    (s.fault = false ∧ s.busy = true ∧ guarded s body = raiseError .busy s) ∨
    (Ready s ∧ guarded s body = body s) := by
  unfold guarded Ready
  rw [← busy_eq_false_iff]
  cases s.fault <;> cases s.busy <;> simp

/-- While FAULT = 1 a command is ignored. -/
theorem command_fault {s : State} (body : State → State) (h : s.fault = true) : command s body = .next s := by
  simp [command, guarded, h]

/-- While a scroll runs a command raises BUSY. -/
theorem command_busy {s : State} (body : State → State) (h : s.fault = false) (hb : s.busy = true) :
    command s body = .next { s with err := .busy } := by
  simp [command, guarded, h, hb, raiseError]

/-- A ready block runs the command. -/
theorem command_ready {s : State} (body : State → State) (h : Ready s) : command s body = .next (body s) := by
  simp [command, guarded, h.1, h.busy]

/-! ## Operand checks -/

theorem withCoord_in {x y : Nat} (s : State) (body : Fin 8 → Fin 8 → State → State) (hx : x < 8) (hy : y < 8) :
    withCoord x y s body = body ⟨x, hx⟩ ⟨y, hy⟩ s := by
  simp [withCoord, hx, hy]

theorem withCoord_out {x y : Nat} (s : State) (body : Fin 8 → Fin 8 → State → State) (h : ¬ (x < 8 ∧ y < 8)) :
    withCoord x y s body = { s with err := .coord } := by
  simp [withCoord, h, raiseError]

theorem commitStage_full {n : Nat} (s : State) (body : State → State) (h : s.scnt.val = n ∧ s.sovf = false) :
    commitStage n s body = body (clearStage s) := by
  simp [commitStage, h]

theorem commitStage_length {n : Nat} (s : State) (body : State → State) (h : ¬ (s.scnt.val = n ∧ s.sovf = false)) :
    commitStage n s body = { s with scnt := 0, sovf := false, err := .length } := by
  simp only [commitStage, h, if_false, raiseError, clearStage]

/-- An append to a buffer that is not full. -/
theorem pushCell_of_lt {α : Type} {n : Nat} (cells : Vector α n) (cnt : Fin (n + 1)) (v : α) (h : cnt.val < n) :
    pushCell cells cnt v = some (cells.set cnt.val v h, ⟨cnt.val + 1, by omega⟩) := by
  simp [pushCell, h]

/-- An append to a full buffer. -/
theorem pushCell_full {α : Type} {n : Nat} (cells : Vector α n) (cnt : Fin (n + 1)) (v : α) (h : cnt.val = n) :
    pushCell cells cnt v = none := by
  simp [pushCell, h]

/-- An append to a string buffer that is not full. -/
theorem pushCodepoint_of_ne {s : State} (cp : Codepoint) (h : s.strlen ≠ s.strcap) :
    pushCodepoint cp s = { s with strbuf := s.strbuf.set s.strlen cp, strlen := s.strlen + 1 } := by
  simp [pushCodepoint, h]

/-- An append to a full string buffer. -/
theorem pushCodepoint_full {s : State} (cp : Codepoint) (h : s.strlen = s.strcap) :
    pushCodepoint cp s = { s with err := .strovf } := by
  simp [pushCodepoint, h, raiseError]

/-- An append leaves the other entries of STRBUF. -/
theorem strAt_set_other (b : List Codepoint) (cp : Codepoint) {i k : Nat} (h : k ≠ i) :
    strAt (b.set i cp) k = strAt b k := by
  simp [strAt, List.getElem?_set_ne h.symm]

/-- And it puts the codepoint where it says. -/
theorem strAt_set_self (b : List Codepoint) (cp : Codepoint) {i : Nat} (h : i < b.length) :
    strAt (b.set i cp) i = cp := by
  simp [strAt, h]

/-! ## Emitting -/

@[simp] theorem length_imageBytes (b : Frame) : (imageBytes b).length = 128 := List.length_ofFn

theorem getElem_imageBytes (b : Frame) (k : Fin 128) (h : k.val < (imageBytes b).length) :
    (imageBytes b)[k.val] = imageByte b k := List.getElem_ofFn h

theorem emit_region_device {s : State} (h : s.sink = .attached .device) :
    (emit s).region = Memory.writeBytes s.region 0 (imageBytes s.fb) := by
  simp only [emit, h]

theorem emit_region_other {s : State} (h : s.sink ≠ .attached .device) : (emit s).region = s.region := by
  cases hs : s.sink with
  | unattached => simp only [emit, hs]
  | attached k =>
    cases k with
    | device => exact absurd hs h
    | test => simp only [emit, hs]

theorem emit_received_test {s : State} (h : s.sink = .attached .test) : (emit s).received = s.received ++ [s.fb] := by
  simp only [emit, h]

theorem emit_received_other {s : State} (h : s.sink ≠ .attached .test) : (emit s).received = s.received := by
  cases hs : s.sink with
  | unattached => simp only [emit, hs]
  | attached k =>
    cases k with
    | device => simp only [emit, hs]
    | test => exact absurd hs h

theorem emit_region_wf {s : State} (h : Memory.wf s.region = true) : Memory.wf (emit s).region = true := by
  by_cases hs : s.sink = .attached .device
  · rw [emit_region_device hs]
    exact Memory.wf_writeBytes 0 (imageBytes s.fb) h
  · rwa [emit_region_other hs]

theorem emit_emittedOnce (s : State) : EmittedOnce s (emit s) where
  frames := rfl
  region_none := emit_region_other
  region_image h w k := by
    have hk : k.val < (imageBytes s.fb).length := by simp
    have := Memory.read_writeBytes (a := 0) w hk
    rw [Nat.zero_add, getElem_imageBytes] at this
    rw [emit_region_device h, this, emit_fb]
  region_above a h := by
    by_cases hs : s.sink = .attached .device
    · rw [emit_region_device hs]
      exact Memory.read_writeBytes_outside (.inr (by rw [length_imageBytes]; omega))
    · rw [emit_region_other hs]
  received_none := emit_received_other
  received_frame := emit_received_test

/-- Everything `mutate` does: one frame to the stream and the sink. -/
theorem mutate_emittedOnce (b : Frame) (s : State) : EmittedOnce s (mutate b s) :=
  let e := emit_emittedOnce { s with fb := b }
  ⟨e.frames, e.region_none, e.region_image, e.region_above, e.received_none, e.received_frame⟩

/-- And it touches nothing else. -/
theorem mutate_onlyDisplay (b : Frame) (s : State) : OnlyDisplay s (mutate b s) := rfl

theorem emit_onlyDisplay (s : State) : OnlyDisplay s (emit s) := rfl

end Sys2Proof.Machine
end

