-- ==== Sys2Proof/Laws/PerInstr.lean ====
section
/-! SUPPORT. Per-instruction lemmas: the opcode that each command's word carries in bits [31:27]. -/

namespace Sys2Proof

/-- The opcode of R64. -/
def opcodeOf : Instr → BitVec 5
  | .nop => 0x00
  | .setpx _ _ _ => 0x01
  | .getpx _ _ => 0x02
  | .setpxa _ _ _ => 0x03
  | .getpxa _ _ => 0x04
  | .setall _ => 0x05
  | .setdata => 0x06
  | .dataclr => 0x07
  | .transpose => 0x08
  | .reflv => 0x09
  | .reflh => 0x0A
  | .rotate _ => 0x0B
  | .setorient _ => 0x0C
  | .showchar _ => 0x0D
  | .shiftc _ => 0x0E
  | .shifts => 0x0F
  | .scroll => 0x10
  | .strclr => 0x11
  | .clrerr => 0x12
  | .flush => 0x13
  | .pack _ _ _ => 0x14
  | .unpack _ => 0x15
  | .insr _ _ => 0x16
  | .insg _ _ => 0x16
  | .insb _ _ => 0x16

namespace Laws.EncodedOpcode

/-- The word of a command carries the command's opcode. -/
def Statement (i : Instr) : Prop := opField (encode i) = opcodeOf i

theorem nop : Statement .nop := rfl
theorem setpx (x : Nat) (y : Nat) (c : Colour) : Statement (.setpx x y c) := by
  simp only [Statement, opField, encode, encP, opcodeOf, BitVec.extractLsb'_append_eq_ite]; simp
theorem getpx (x : Nat) (y : Nat) : Statement (.getpx x y) := by
  simp only [Statement, opField, encode, encQ, opcodeOf, BitVec.extractLsb'_append_eq_ite]; simp
theorem setpxa (x : Nat) (y : Nat) (c : Colour) : Statement (.setpxa x y c) := by
  simp only [Statement, opField, encode, encP, opcodeOf, BitVec.extractLsb'_append_eq_ite]; simp
theorem getpxa (x : Nat) (y : Nat) : Statement (.getpxa x y) := by
  simp only [Statement, opField, encode, encQ, opcodeOf, BitVec.extractLsb'_append_eq_ite]; simp
theorem setall (c : Colour) : Statement (.setall c) := by
  simp only [Statement, opField, encode, encC, opcodeOf, BitVec.extractLsb'_append_eq_ite]; simp
theorem setdata : Statement .setdata := rfl
theorem dataclr : Statement .dataclr := rfl
theorem transpose : Statement .transpose := rfl
theorem reflv : Statement .reflv := rfl
theorem reflh : Statement .reflh := rfl
theorem rotate (d : Int) : Statement (.rotate d) := by
  simp only [Statement, opField, encode, encA, opcodeOf, BitVec.extractLsb'_append_eq_ite]; simp
theorem setorient (o : Orientation) : Statement (.setorient o) := by
  simp only [Statement, opField, encode, encO, opcodeOf, BitVec.extractLsb'_append_eq_ite]; simp
theorem showchar (p : Codepoint) : Statement (.showchar p) := by
  simp only [Statement, opField, encode, encU, opcodeOf, BitVec.extractLsb'_append_eq_ite]; simp
theorem shiftc (c : Colour) : Statement (.shiftc c) := by
  simp only [Statement, opField, encode, encC, opcodeOf, BitVec.extractLsb'_append_eq_ite]; simp
theorem shifts : Statement .shifts := rfl
theorem scroll : Statement .scroll := rfl
theorem strclr : Statement .strclr := rfl
theorem clrerr : Statement .clrerr := rfl
theorem flush : Statement .flush := rfl
theorem pack (r : Byte) (g : Byte) (b : Byte) : Statement (.pack r g b) := by
  simp only [Statement, opField, encode, encB, opcodeOf, BitVec.extractLsb'_append_eq_ite]; simp
theorem unpack (c : Colour) : Statement (.unpack c) := by
  simp only [Statement, opField, encode, encC, opcodeOf, BitVec.extractLsb'_append_eq_ite]; simp
theorem insr (c : Colour) (v : Byte) : Statement (.insr c v) := by
  simp only [Statement, opField, encode, encI, opcodeOf, BitVec.extractLsb'_append_eq_ite]; simp
theorem insg (c : Colour) (v : Byte) : Statement (.insg c v) := by
  simp only [Statement, opField, encode, encI, opcodeOf, BitVec.extractLsb'_append_eq_ite]; simp
theorem insb (c : Colour) (v : Byte) : Statement (.insb c v) := by
  simp only [Statement, opField, encode, encI, opcodeOf, BitVec.extractLsb'_append_eq_ite]; simp

end Laws.EncodedOpcode
end Sys2Proof
end

