-- ==== Sys2Proof/Laws/Step.lean ====
section
/-! SUPPORT. What a tick, a port access and a step can do. -/

namespace Sys2Proof.Machine

/-! ## Ticks -/

theorem tick_idle {s : State} (h : s.seq.phase = .idle) : tick s = s := by simp [tick, h]

theorem tick_step {s : State} (h : s.seq.phase = .step) : tick s = afterColumn (columnStep (loadGlyph s)) := by
  simp [tick, h]

theorem tick_wait {s : State} (h : s.seq.phase = .wait) : tick s = waitTick s := by simp [tick, h]

/-- The three things `advance()` can do (R134). -/
theorem advanceScroll_cases (s : State) :
    (∃ h : s.seq.c.val < 7, advanceScroll s =
      { s with seq := { s.seq with c := ⟨s.seq.c.val + 1, by omega⟩, phase := .step } }) ∨
    (¬ s.seq.c.val < 7 ∧ s.seq.i + 1 < s.strlen ∧ advanceScroll s =
      { s with seq := { s.seq with i := s.seq.i + 1, c := 0, phase := .step } }) ∨
    (¬ s.seq.c.val < 7 ∧ ¬ s.seq.i + 1 < s.strlen ∧ advanceScroll s = completeScroll s) := by
  unfold advanceScroll
  by_cases hc : s.seq.c.val < 7
  · exact .inl ⟨hc, by simp [hc]⟩
  · by_cases hi : s.seq.i + 1 < s.strlen
    · exact .inr (.inl ⟨hc, hi, by simp [hc, hi]⟩)
    · exact .inr (.inr ⟨hc, hi, by simp [hc, hi]⟩)

/-- Loading a glyph touches the sequencer only. -/
theorem loadGlyph_onlySeq (s : State) : loadGlyph s = { s with seq := (loadGlyph s).seq } := by
  unfold loadGlyph; split <;> rfl

/-- What loading a glyph does to the sequencer (R133). -/
theorem loadGlyph_seq (s : State) : (loadGlyph s).seq = { s.seq with
    g := if s.seq.c = 0 then raster (strAt s.strbuf s.seq.i) s.seq.fgL s.seq.bgL else s.seq.g } := by
  unfold loadGlyph; split <;> rfl

/-- A column step emits one frame. -/
theorem columnStep_emittedOnce (s : State) : EmittedOnce s (columnStep s) := mutate_emittedOnce _ s

/-- And it touches nothing but the display. -/
theorem columnStep_onlyDisplay (s : State) : OnlyDisplay s (columnStep s) := mutate_onlyDisplay _ s

/-- `advance()` touches the sequencer and STRLEN only. -/
theorem advanceScroll_onlySeq (s : State) :
    advanceScroll s = { s with seq := (advanceScroll s).seq, strlen := (advanceScroll s).strlen } := by
  rcases advanceScroll_cases s with ⟨_, e⟩ | ⟨_, _, e⟩ | ⟨_, _, e⟩ <;> (rw [e]; try rfl)

/-- What follows a column step touches the sequencer and STRLEN only. -/
theorem afterColumn_onlySeq (s : State) :
    afterColumn s = { s with seq := (afterColumn s).seq, strlen := (afterColumn s).strlen } := by
  unfold afterColumn
  split
  · exact advanceScroll_onlySeq s
  · rfl

/-- A tick of the delay counter touches the sequencer and STRLEN only. -/
theorem waitTick_onlySeq (s : State) :
    waitTick s = { s with seq := (waitTick s).seq, strlen := (waitTick s).strlen } := by
  unfold waitTick
  split
  · exact advanceScroll_onlySeq { s with seq := { s.seq with w := s.seq.w - 1 } }
  · rfl

/-- One frame emitted from a state whose sequencer differs is one frame emitted. -/
theorem EmittedOnce.of_seq {s t : State} {q : Seq} (h : EmittedOnce { s with seq := q } t) : EmittedOnce s t :=
  ⟨h.frames, h.region_none, h.region_image, h.region_above, h.received_none, h.received_frame⟩

/-- The sequencer and STRLEN may change after the frame. -/
theorem EmittedOnce.then_seq {s t : State} {q : Seq} {n : Nat} (h : EmittedOnce s t) :
    EmittedOnce s { t with seq := q, strlen := n } :=
  ⟨h.frames, h.region_none, h.region_image, h.region_above, h.received_none, h.received_frame⟩

/-! ## The register map -/

theorem portReg_cmd {a : PortAddr} (h : byteOffset a = 0x000) : portReg a = .cmd := by simp [portReg, h]

theorem portReg_status {a : PortAddr} (h : byteOffset a = 0x004) : portReg a = .status := by simp [portReg, h]

theorem portReg_result {a : PortAddr} (h : byteOffset a = 0x008) : portReg a = .result := by simp [portReg, h]

theorem portReg_fg {a : PortAddr} (h : byteOffset a = 0x00C) : portReg a = .fg := by simp [portReg, h]

theorem portReg_bg {a : PortAddr} (h : byteOffset a = 0x010) : portReg a = .bg := by simp [portReg, h]

theorem portReg_delay {a : PortAddr} (h : byteOffset a = 0x014) : portReg a = .delay := by simp [portReg, h]

theorem portReg_str {a : PortAddr} (h : byteOffset a = 0x018) : portReg a = .str := by simp [portReg, h]

theorem portReg_data {a : PortAddr} (h : byteOffset a = 0x01C) : portReg a = .data := by simp [portReg, h]

theorem portReg_strlen {a : PortAddr} (h : byteOffset a = 0x020) : portReg a = .strlen := by simp [portReg, h]

theorem portReg_fbwin {a : PortAddr} {j : Fin 32} (h : byteOffset a = 0x100 + 4 * j.val) : portReg a = .fbwin j := by
  have hj := j.isLt
  unfold portReg
  split_ifs <;> first | omega | simp [h]

theorem eq_cmdAddr_of_portReg {a : PortAddr} (h : portReg a = .cmd) : a = cmdAddr := by
  unfold portReg at h
  split at h
  · apply BitVec.eq_of_toNat_eq
    simp only [byteOffset, cmdAddr] at *
    simp
    omega
  · repeat' split at h
    all_goals cases h

/-! ## A step -/

theorem step_empty {s : State} (h : s.inputs = []) : step s = .next (tick s) := by simp [step, stepState, h]

theorem step_input {s : State} {e : Input} {rest : List Input} (h : s.inputs = e :: rest) :
    step s = perform e { s with inputs := rest } := by simp [step, stepState, h]

theorem portReg_cmdAddr : portReg cmdAddr = .cmd := by decide

/-- A CMD write of a word that spells a command runs it; one that spells none raises ILLEGAL behind the guard. -/
theorem writeCmd_cases (w : Word) (s : State) :
    (∃ i, decode w = .command i ∧ writeCmd w s = exec i s) ∨
    (∃ r, decode w = .illegal r ∧ writeCmd w s = command s (raiseError .illegal)) := by
  unfold writeCmd
  cases h : decode w with
  | command i => exact .inl ⟨i, rfl, rfl⟩
  | illegal r => exact .inr ⟨r, rfl, rfl⟩

/-- Placing a word puts a CMD write of it first. -/
theorem withFetchWord_inputs (s : State) (nbits w : Nat) :
    (s.withFetchWord nbits w).inputs = .portWrite cmdAddr (BitVec.ofNat 32 (w % 2 ^ nbits)) :: s.inputs := rfl

end Sys2Proof.Machine
end

