-- ==== Sys2Proof/Machine/HostProgram.lean ====
section
/-! DEFINITION. The host's side as lists of inputs: the statements of R73 and the pseudo-instructions of R74
(spec/30_encoding.md). They are host software; the block sees only their expansion. -/

namespace Sys2Proof.Machine

/-- The word of the port at a byte offset (R38, R40). -/
def atOffset (off : Nat) : PortAddr := BitVec.ofNat 10 (off / 4)

def fgAddr : PortAddr := atOffset 0x00C
def bgAddr : PortAddr := atOffset 0x010
def delayAddr : PortAddr := atOffset 0x014
def strAddr : PortAddr := atOffset 0x018
def dataAddr : PortAddr := atOffset 0x01C
def statusAddr : PortAddr := atOffset 0x004
def fbwinAddr (j : Fin 32) : PortAddr := atOffset (0x100 + 4 * j.val)

/-- `cmd <command>` (R73). -/
def hostCmd (i : Instr) : Input := .portWrite cmdAddr (encode i)

/-- `tick n` (R73). -/
def hostTicks (n : Nat) : List Input := List.replicate n .tick

/-- `CLEAR color` (R74). -/
def pseudoClear (color : Colour) : List Input := [hostCmd (.setall color)]

/-- `ROT90` (R74). -/
def pseudoRot90 : List Input := [hostCmd (.rotate 90)]

/-- `ROT180` (R74). -/
def pseudoRot180 : List Input := [hostCmd (.rotate 180)]

/-- `ROT270` (R74). -/
def pseudoRot270 : List Input := [hostCmd (.rotate 270)]

/-- The writes of FG and BG that SHOW and SCROLLSTR begin with (R74). -/
def writeColours (fg bg : Colour) : List Input :=
  [.portWrite fgAddr (fg.zeroExtend 32), .portWrite bgAddr (bg.zeroExtend 32)]

/-- `SHOW cp, fg, bg` (R74). -/
def pseudoShow (cp : Codepoint) (fg bg : Colour) : List Input := writeColours fg bg ++ [hostCmd (.showchar cp)]

/-- DATACLR and one DATA write for each pixel (R74, R93). -/
def stagePixels (ps : List Colour) : List Input :=
  hostCmd .dataclr :: ps.map fun p => .portWrite dataAddr (p.zeroExtend 32)

/-- `LOADDATA p0, …, p63` (R74). -/
def pseudoLoadData (b : Frame) : List Input := stagePixels b.toList ++ [hostCmd .setdata]

/-- `SHIFTCOL c0, …, c7` (R74). -/
def pseudoShiftCol (col : Vector Colour 8) : List Input := stagePixels col.toList ++ [hostCmd .shifts]

/-- `WAITIDLE` for a host that looks `n` times: a tick and a read of STATUS each time. The loop's end is the host's
decision, so a list of inputs holds as many looks as that host makes (R74; notes/assumptions/15.md). -/
def pseudoWaitIdle (n : Nat) : List Input := (List.replicate n [Input.tick, .portRead statusAddr]).flatten

/-- `SCROLLSTR cp0 … cpn−1, fg, bg, delay`, with as many looks in WAITIDLE as the scroll has ticks (R74, R136). -/
def pseudoScrollStr (cps : List Codepoint) (fg bg : Colour) (delay : Word) : List Input :=
  writeColours fg bg ++ [.portWrite delayAddr delay, hostCmd .strclr]
    ++ cps.map (fun cp => .portWrite strAddr (cp.zeroExtend 32)) ++ [hostCmd .scroll]
    ++ pseudoWaitIdle (8 * cps.length * ((columnDelay delay).toNat + 1))

/-- `RGB(r, g, b)`, a constant of the assembler (R74). -/
def pseudoRgb (r g b : Byte) : Colour := packColour r g b

end Sys2Proof.Machine
end

