-- ==== Sys2Proof/Tests/Slice0.lean ====
section
/-! SUPPORT. The model's own tests, each one step on a small state, with expected results from the spec's rules and its
95_test_vectors.md; and a witness for the hypotheses of each statement. -/

namespace Sys2Proof.Tests
open Sys2Proof Sys2Proof.Machine

/-! ## Small states -/

/-- fb[i] = i, otherwise reset. -/
def ramp : State := { State.reset with fb := Vector.ofFn fun i => BitVec.ofNat 16 i.val }

/-- Staged pixels i = 0..63, with a count. -/
def staged (n : Fin 65) : State :=
  { State.reset with stage := Vector.ofFn fun i => BitVec.ofNat 16 i.val, scnt := n }

/-- U+2598 in the string buffer, red on blue. -/
def boxString : State :=
  { State.reset with strbuf := List.replicate Config.strcap 0x2598, strlen := 1, fg := 0xF800, bg := 0x001F }

/-- A scroll of U+2598 about to make its first column step, delay 0. -/
def scrolling : State :=
  { boxString with seq := { Seq.reset with phase := .step, fgL := 0xF800, bgL := 0x001F } }

/-- The same scroll after column 7, one tick of delay left. -/
def waiting : State :=
  { boxString with seq := { Seq.reset with
      phase := .wait, c := 7, w := 1, dL := 2, fgL := 0xF800, bgL := 0x001F, g := raster 0x2598 0xF800 0x001F } }

/-- The fault state. -/
def faulted : State := { State.reset with err := .angle, fault := true }

/-- The state an outcome carries. -/
def stateOf : Host.Outcome State Fault Refusal → Option State
  | .next t => some t
  | .fault _ => none
  | .refused _ => none

/-- One field after a command. -/
def after {α : Type} (i : Instr) (s : State) (f : State → α) : Option α := (stateOf (exec i s)).map f

/-- One field after a step that performs an input. -/
def afterInput {α : Type} (e : Input) (s : State) (f : State → α) : Option α :=
  (stateOf (step { s with inputs := [e] })).map f

/-- The cells 0, 1, 7, 8, 56 and 63, as 95_test_vectors.md lists them. -/
def corners (s : State) : List Nat :=
  [0, 1, 7, 8, 56, 63].map fun i : Fin 64 => (cell s.fb i).toNat

/-! ## Well-formedness: an ill-formed term for each check -/

theorem test_wf_refuses_x : WellFormed (.setpx 16 0 0) = false := by decide
theorem test_wf_refuses_y : WellFormed (.getpx 0 16) = false := by decide
theorem test_wf_refuses_absolute_x : WellFormed (.setpxa 16 0 0) = false := by decide
theorem test_wf_refuses_absolute_y : WellFormed (.getpxa 0 16) = false := by decide
theorem test_wf_refuses_angle_above : WellFormed (.rotate 32768) = false := by decide
theorem test_wf_refuses_angle_below : WellFormed (.rotate (-32769)) = false := by decide
theorem test_wf_admits_out_of_range_coordinates : WellFormed (.setpx 15 8 0) = true := by decide
theorem test_assemble_refuses : assemble (.rotate 40000) = none := by decide

/-! ## Decoding: words written out bit by bit from R62 and R64 -/

theorem test_decode_nop : decode 0b00000_000000000000000000000000000#32 = .command .nop := by decide
theorem test_decode_setpx :
    decode 0b00001_0101_0110_000_1111100000000000#32 = .command (.setpx 5 6 0xF800) := by decide
theorem test_decode_getpx : decode 0b00010_1111_0001_0000000000000000000#32 = .command (.getpx 15 1) := by decide
theorem test_decode_setpxa :
    decode 0b00011_0000_0111_000_0000000000011111#32 = .command (.setpxa 0 7 0x001F) := by decide
theorem test_decode_getpxa : decode 0b00100_0001_0101_0000000000000000000#32 = .command (.getpxa 1 5) := by decide
theorem test_decode_setall : decode 0b00101_00000000000_0001001000110100#32 = .command (.setall 0x1234) := by decide
theorem test_decode_setdata : decode 0b00110_000000000000000000000000000#32 = .command .setdata := by decide
theorem test_decode_dataclr : decode 0b00111_000000000000000000000000000#32 = .command .dataclr := by decide
theorem test_decode_transpose : decode 0b01000_000000000000000000000000000#32 = .command .transpose := by decide
theorem test_decode_reflv : decode 0b01001_000000000000000000000000000#32 = .command .reflv := by decide
theorem test_decode_reflh : decode 0b01010_000000000000000000000000000#32 = .command .reflh := by decide
theorem test_decode_rotate : decode 0b01011_00000000000_1111111110100110#32 = .command (.rotate (-90)) := by decide
theorem test_decode_setorient : decode 0b01100_0000000000000000000000000_11#32 = .command (.setorient .left) := by decide
theorem test_decode_showchar :
    decode 0b01101_000000_000000010010110011000#32 = .command (.showchar 0x2598) := by decide
theorem test_decode_shiftc : decode 0b01110_00000000000_1111100000000000#32 = .command (.shiftc 0xF800) := by decide
theorem test_decode_shifts : decode 0b01111_000000000000000000000000000#32 = .command .shifts := by decide
theorem test_decode_scroll : decode 0b10000_000000000000000000000000000#32 = .command .scroll := by decide
theorem test_decode_strclr : decode 0b10001_000000000000000000000000000#32 = .command .strclr := by decide
theorem test_decode_clrerr : decode 0b10010_000000000000000000000000000#32 = .command .clrerr := by decide
theorem test_decode_flush : decode 0b10011_000000000000000000000000000#32 = .command .flush := by decide
theorem test_decode_pack :
    decode 0b10100_000_00000011_00000010_00000001#32 = .command (.pack 1 2 3) := by decide
theorem test_decode_unpack : decode 0b10101_00000000000_0001001000110100#32 = .command (.unpack 0x1234) := by decide
theorem test_decode_insr :
    decode 0b10110_000_00000101_0001001000110100#32 = .command (.insr 0x1234 5) := by decide
theorem test_decode_insg :
    decode 0b10110_001_00111111_1111100000000000#32 = .command (.insg 0xF800 63) := by decide
theorem test_decode_insb :
    decode 0b10110_010_11111111_0000000000000000#32 = .command (.insb 0 255) := by decide
theorem test_decode_reserved_opcode : decode 0xB8000000 = .illegal .reservedOpcode := by decide
theorem test_decode_reserved_bits : decode 0x0C010001 = .illegal .reservedBits := by decide
theorem test_decode_reserved_sel : decode 0xB7000000 = .illegal .reservedSel := by decide
theorem test_table_word : decodeTableWord 32 0x0AB0F800 = some (.setpx 5 6 0xF800) := by decide

/-! ## Commands: results of 95_test_vectors.md -/

theorem test_nop :
    after .nop ramp (fun s => (corners s, s.result, statusWord s, s.frames)) = some ([0, 1, 7, 8, 56, 63], 0, 0, []) := by decide
theorem test_clrerr : after .clrerr { ramp with err := .coord } (·.err) = some .none := by decide
theorem test_flush : after .flush ramp (·.frames) = some [ramp.fb] := by decide
theorem test_setpx_right :
    after (.setpx 5 6 0xF800) { ramp with orient := .right } (fun s => (cell s.fb 41, cell s.fb 40)) =
      some (0xF800, 40) := by decide
theorem test_setpx_out_of_range :
    after (.setpx 8 0 1) ramp (fun s => (s.err, s.frames)) = some (.coord, []) := by decide
theorem test_getpx_left : after (.getpx 5 6) { ramp with orient := .left } (·.result) = some 22 := by decide
theorem test_getpx_out_of_range : after (.getpx 0 8) ramp (fun s => (s.err, s.result)) = some (.coord, 0) := by decide
theorem test_setpxa :
    after (.setpxa 1 0 7) { ramp with orient := .left } (fun s => (cell s.fb 1, cell s.fb 8)) = some (7, 8) := by decide
theorem test_getpxa : after (.getpxa 1 5) { ramp with orient := .down } (·.result) = some 41 := by decide
theorem test_setall : after (.setall 0x1234) ramp corners = some (List.replicate 6 0x1234) := by decide
theorem test_setdata : after .setdata (staged 64) (fun s => (corners s, s.scnt)) = some ([0, 1, 7, 8, 56, 63], 0) := by decide
theorem test_setdata_short :
    after .setdata (staged 63) (fun s => (s.err, s.scnt, corners s)) = some (.length, 0, List.replicate 6 0) := by decide
theorem test_dataclr : after .dataclr { staged 64 with sovf := true } (fun s => (s.scnt, s.sovf)) = some (0, false) := by decide
theorem test_transpose : after .transpose ramp corners = some [0, 8, 56, 1, 7, 63] := by decide
theorem test_reflv : after .reflv ramp corners = some [7, 6, 0, 15, 63, 56] := by decide
theorem test_reflh : after .reflh ramp corners = some [56, 57, 63, 48, 0, 7] := by decide
theorem test_rotate_270 : after (.rotate (-90)) ramp corners = some [56, 48, 0, 57, 63, 7] := by decide
theorem test_rotate_45 :
    after (.rotate 45) ramp (fun s => (statusWord s, s.frames, corners s)) =
      some (0x00000062, [], [0, 1, 7, 8, 56, 63]) := by decide
theorem test_setorient_right : after (.setorient .right) ramp corners = some [56, 48, 0, 57, 63, 7] := by decide
theorem test_setorient_right_to_left :
    after (.setorient .left) { ramp with orient := .right } corners = some [63, 62, 56, 55, 7, 0] := by decide
theorem test_showchar_right :
    after (.showchar 0x2598) { boxString with orient := .right } corners =
      some [0x1F, 0x1F, 0xF800, 0x1F, 0x1F, 0x1F] := by decide
theorem test_showchar_unmapped : after (.showchar 0x0401) boxString corners = some (List.replicate 6 0x1F) := by decide
theorem test_shiftc : after (.shiftc 0xF800) ramp corners = some [1, 2, 0xF800, 9, 57, 0xF800] := by decide
theorem test_shifts_right :
    after .shifts { staged 8 with orient := .right } (fun s => (corners s, s.scnt)) = some ([0, 0, 0, 0, 7, 0], 0) := by decide
theorem test_shifts_short : after .shifts (staged 7) (fun s => (s.err, s.scnt)) = some (.length, 0) := by decide
theorem test_scroll :
    after .scroll { boxString with delay := 17 } (fun s => (s.seq.phase, s.seq.dL, s.seq.fgL, s.busy, s.frames)) =
      some (.step, 2, 0xF800, true, []) := by decide
theorem test_scroll_empty : after .scroll ramp (fun s => (s.busy, s.frames)) = some (false, []) := by decide
theorem test_strclr : after .strclr boxString (·.strlen) = some 0 := by decide
theorem test_pack : after (.pack 33 65 33) ramp (·.result) = some 0x00000821 := by decide
theorem test_unpack : after (.unpack 0x1234) ramp (·.result) = some 0x00141102 := by decide
theorem test_insr : after (.insr 0x1234 5) ramp (·.result) = some 0x00002A34 := by decide
theorem test_insr_masks : after (.insr 0xFFFF 32) ramp (·.result) = some 0x000007FF := by decide
theorem test_insg : after (.insg 0xF800 63) ramp (·.result) = some 0x0000FFE0 := by decide
theorem test_insg_masks : after (.insg 0xFFFF 64) ramp (·.result) = some 0x0000F81F := by decide
theorem test_insb : after (.insb 0 255) ramp (·.result) = some 0x0000001F := by decide
theorem test_insb_masks : after (.insb 0xFFFF 32) ramp (·.result) = some 0x0000FFE0 := by decide

/-! ## Guards, ticks and the port -/

theorem test_busy_rejects : after .nop scrolling statusWord = some 0x00000041 := by decide
theorem test_fault_ignores : after .clrerr faulted statusWord = some 0x00000062 := by decide
theorem test_tick_first_column :
    afterInput .tick scrolling (fun s => (corners s, s.seq.c, s.frames.length)) =
      some ([0, 0, 0xF800, 0, 0, 0x1F], 1, 1) := by decide
theorem test_tick_completes :
    afterInput .tick waiting (fun s => (s.seq.phase, s.strlen, s.frames)) = some (.idle, 0, []) := by decide
theorem test_illegal_word : afterInput (.portWrite cmdAddr 0x00000001) ramp (·.err) = some .illegal := by decide
theorem test_str_write :
    afterInput (.portWrite strAddr 0x00002598) ramp (fun s => (s.strlen, strAt s.strbuf 0)) =
      some (1, 0x2598) := by decide
theorem test_str_write_high_bits : afterInput (.portWrite strAddr 0x00200000) ramp (·.err) = some .illegal := by decide
theorem test_data_write_overflow :
    afterInput (.portWrite dataAddr 1) (staged 64) statusWord = some 0x00C00000 := by decide
theorem test_strcap_two :
    afterInput (.portWrite strAddr 3) { State.resetWith 2 with strbuf := [1, 2], strlen := 2 }
      (fun s => (s.strlen, s.err, s.strbuf)) = some (2, .strovf, [1, 2]) := by decide
theorem test_window : afterInput (.portRead (fbwinAddr 31)) ramp (·.replies) = some [0x003F003E] := by decide
theorem test_fg_reserved_bits : afterInput (.portWrite fgAddr 0xABCD1234) ramp (portValue fgAddr) = some 0x1234 := by decide
theorem test_reset_of_fault : afterInput .reset faulted statusWord = some 0 := by decide
theorem test_device_image :
    afterInput (.portWrite cmdAddr 0x98000000) { ramp with sink := .attached .device }
      (fun s => (Memory.read s.region 126, Memory.read s.region 127, Memory.wf s.region)) = some (63, 0, true) := by
  decide +kernel
theorem test_attach_twice :
    step { ramp with sink := .attached .device, inputs := [.attach .test] } = .refused .sinkAlreadyAttached := rfl
theorem test_fetch_word : step (State.reset.withFetchWord 32 0x2800F800) = exec (.setall 0xF800) State.reset := rfl
theorem test_reset_region_wf : Memory.wf State.reset.region = true := by decide

/-! ## Witnesses: each statement's hypotheses hold together somewhere -/

theorem ready_reset : Ready State.reset := ⟨rfl, rfl⟩
theorem ready_ramp : Ready ramp := ⟨rfl, rfl⟩
theorem ready_staged (n : Fin 65) : Ready (staged n) := ⟨rfl, rfl⟩
theorem ready_boxString : Ready boxString := ⟨rfl, rfl⟩

/-- A fresh block with an input pending. -/
def pending (e : Input) : State := { State.reset with inputs := [e] }

theorem ready_pending (e : Input) : Ready (pending e) := ⟨rfl, rfl⟩

/-- DecodeOfEncode: the coordinates and the angle at both ends of their fields. -/
theorem witness_DecodeOfEncode :
    WellFormed (.setpx 15 0 0xFFFF) = true ∧ WellFormed (.rotate 32767) = true ∧ WellFormed (.rotate (-32768)) = true := by
  decide

/-- EncodeOfDecode and EveryWordIsOneRowOrIllegal. -/
theorem witness_EncodeOfDecode :
    decode 0x17F80000 = .command (.getpx 15 15) ∧ decode 0xFFFFFFFF = .illegal .reservedOpcode := by decide

theorem witness_StepRunsTheDecodedCommand :
    (pending (.portWrite cmdAddr 0x2800F800)).inputs = .portWrite cmdAddr 0x2800F800 :: [] ∧
    decode 0x2800F800 = .command (.setall 0xF800) ∧
    0x2800F800 < 2 ^ 32 ∧ decode (BitVec.ofNat 32 0x2800F800) = .command (.setall 0xF800) :=
  ⟨rfl, by decide, by decide, by decide⟩

/-- IllegalWordsOnlySetErr: the first reserved opcode, one reserved bit, and the first illegal `sel`. -/
theorem witness_IllegalWordsOnlySetErr :
    Ready (pending (.portWrite cmdAddr 0xB8000000)) ∧ 0x17 ≤ ((0xB8000000 : Word) >>> 27).toNat ∧
    formatOf ((0x00000001 : Word) >>> 27).toNat = some .n ∧ (0x00000001 : Word) &&& reservedMask .n ≠ 0 ∧
    ((0xB3000000 : Word) >>> 27).toNat = 0x16 ∧ 3 ≤ (((0xB3000000 : Word) >>> 24) &&& 0x7).toNat :=
  ⟨ready_pending _, by decide, by decide, by decide, by decide, by decide⟩

/-- CommandsAreGuarded, AccessesDuringAScroll. -/
theorem witness_guard : faulted.fault = true ∧ scrolling.fault = false ∧ scrolling.busy = true := ⟨rfl, rfl, rfl⟩

/-- AccessesDuringAScroll: each kind of register. -/
theorem witness_AccessesDuringAScroll :
    portReg cmdAddr = .cmd ∧ portReg strAddr = .str ∧ portReg dataAddr = .data ∧ portReg fgAddr = .fg ∧
    portReg bgAddr = .bg ∧ portReg delayAddr = .delay := by decide

/-- WriteErrorPriority: a malformed word of each register, an operand error, a full string buffer. -/
theorem witness_WriteErrorPriority :
    decode 0x0C810001 = .illegal .reservedBits ∧ (0x00200000 : Word).extractLsb' 21 11 ≠ 0 ∧
    (0x00010000 : Word).extractLsb' 16 16 ≠ 0 ∧ decode 0x0C800001 = .command (.setpx 9 0 1) ∧
    operandError (.setpx 9 0 1) State.reset = some .coord ∧
    ({ State.reset with strlen := Config.strcap } : State).strlen = ({ State.reset with strlen := Config.strcap } : State).strcap := by decide

/-- OperandErrorsArePrecise: each command with a recoverable check, at the edge of its range. -/
theorem witness_OperandErrorsArePrecise :
    operandError (.setpx 8 0 0) State.reset = some .coord ∧ operandError (.getpx 0 8) State.reset = some .coord ∧
    operandError (.setpxa 8 7 0) State.reset = some .coord ∧ operandError (.getpxa 7 8) State.reset = some .coord ∧
    operandError .setdata (staged 63) = some .length ∧ operandError .shifts (staged 9) = some .length := by decide

/-- The fault state meets the invariant, whatever is pending. -/
theorem inv_faulted (l : List Input) : Inv { faulted with inputs := l } :=
  ⟨by simp [faulted], fun _ => rfl, fun h => absurd rfl h, Nat.zero_le _, List.length_replicate, show (256 : Nat) < 2 ^ 32 by decide, by simp [faulted, State.reset],
    by simp [faulted, State.reset], by simp [faulted, State.reset], rfl, fun _ _ => rfl, fun _ => rfl, .inl rfl,
    fun _ => rfl, List.nil_suffix⟩

/-- FaultStateIsHalted: with a write, a read, a tick and the reset pending. -/
theorem witness_FaultStateIsHalted :
    ∀ e ∈ [Input.portWrite fgAddr 1, .portRead statusAddr, .tick, .reset],
      Inv { faulted with inputs := [e] } ∧ ({ faulted with inputs := [e] } : State).fault = true :=
  fun e _ => ⟨inv_faulted [e], rfl⟩

theorem witness_FaultComesOnlyFromRotate :
    ∃ t, step (State.reset.withFetchWord 32 0x5800002D) = .next t ∧ State.reset.fault = false ∧ t.fault = true :=
  ⟨_, rfl, rfl, by decide⟩

/-- StrWriteAppends: a running scroll, a high bit, a full buffer, the last free entry. -/
theorem witness_StrWriteAppends :
    byteOffset strAddr = 0x018 ∧ (0x00200000 : Word).toNat / 2 ^ 21 ≠ 0 ∧ (0x001FFFFF : Word).toNat / 2 ^ 21 = 0 ∧
    ({ State.reset with strlen := 255 } : State).strlen ≠ ({ State.reset with strlen := 255 } : State).strcap := by decide

/-- DataWriteAppends: a high bit, a full buffer, the last free entry. -/
theorem witness_DataWriteAppends :
    byteOffset dataAddr = 0x01C ∧ (0x00010000 : Word).toNat / 2 ^ 16 ≠ 0 ∧ (0x0000FFFF : Word).toNat / 2 ^ 16 = 0 ∧
    (staged 64).scnt.val = 64 ∧ (staged 63).scnt.val < 64 := by decide

/-- ColourAndDelayRegisters, StatusFields, WindowShowsTheImage, ReadsHaveNoSideEffect: the offsets. -/
theorem witness_offsets :
    byteOffset fgAddr = 0x00C ∧ byteOffset bgAddr = 0x010 ∧ byteOffset delayAddr = 0x014 ∧ byteOffset statusAddr = 0x004 ∧
    byteOffset (fbwinAddr 0) = 0x100 + 4 * (0 : Fin 32).val ∧ byteOffset (fbwinAddr 31) = 0x100 + 4 * (31 : Fin 32).val ∧
    byteOffset (atOffset 0x008) = 0x008 ∧ byteOffset (atOffset 0x020) = 0x020 := by decide

/-- UnmappedAndOneWayOffsets: the ends of the unmapped ranges, and read-only offsets. -/
theorem witness_UnmappedAndOneWayOffsets :
    0x020 < byteOffset (atOffset 0x024) ∧ ¬ (0x100 ≤ byteOffset (atOffset 0x024)) ∧
    ¬ (byteOffset (atOffset 0x180) ≤ 0x17C) ∧ byteOffset (atOffset 0xFFC) = 0xFFC ∧
    byteOffset (fbwinAddr 31) ∉ [0x000, 0x00C, 0x010, 0x014, 0x018, 0x01C] := by decide

/-- SetdataCommitsOrRaisesLength and ShiftsShiftsTheStagedColumn: the count that commits and its neighbours. -/
theorem witness_commit :
    ((staged 64).scnt.val = 64 ∧ (staged 64).sovf = false) ∧ ¬ ((staged 63).scnt.val = 64 ∧ (staged 63).sovf = false) ∧
    ((staged 8).scnt.val = 8 ∧ (staged 8).sovf = false) ∧ ¬ ((staged 9).scnt.val = 8 ∧ (staged 9).sovf = false) ∧
    ¬ (({ staged 64 with sovf := true } : State).scnt.val = 64 ∧ ({ staged 64 with sovf := true } : State).sovf = false) := by
  decide

/-- SetpxWritesOneCell, SetpxaWritesOneCell, GetpxReadsOneCell: the first coordinates out of range. -/
theorem witness_out_of_range : ¬ (8 < 8 ∧ 0 < 8) ∧ ¬ (7 < 8 ∧ 8 < 8) := by decide

/-- RotateTurnsOrFaults, TransformAlgebra: both kinds of angle, the extremes included. -/
theorem witness_angles :
    (32760 : Int) % 90 = 0 ∧ (-32760 : Int) % 90 = 0 ∧ (32767 : Int) % 90 ≠ 0 ∧ (-32768 : Int) % 90 ≠ 0 := by decide

/-- GlyphLookup: a codepoint in a range, and one in none. -/
theorem witness_GlyphLookup :
    (Config.font.lo 3 ≤ 0x2598 ∧ 0x2598 ≤ Config.font.hi 3) ∧
    ∀ j, ¬ (Config.font.lo j ≤ 0x0401 ∧ 0x0401 ≤ Config.font.hi j) :=
  ⟨Config.font.box_mem, Config.font.io_not_mem⟩

/-- UnmappedIsBlank: the ends of each range. -/
theorem witness_UnmappedIsBlank :
    (0xD800 : Codepoint) ≤ 0xD800 ∧ (0xDFFF : Codepoint) ≤ 0xDFFF ∧ (0x10FFFF : Codepoint) < 0x110000 := by decide

theorem witness_ShiftTestRestores : Ready State.reset ∧ ∀ j, cell State.reset.fb j = 0x0000 := ⟨ready_reset, by decide⟩

/-- ScrollStartsTheSequencer, ScrollTiming, ScrollEndsOnTheLastCharacter: an empty, a short and a full string. -/
theorem witness_scroll :
    State.reset.strlen = 0 ∧ boxString.strlen ≠ 0 ∧
    ({ boxString with strlen := Config.strcap } : State).strlen ≠ 0 := by decide

/-- ScrollTiming: the first and the last step, and the ends of their delays, for one character and DELAY = 17. -/
theorem witness_ScrollTiming :
    0 < 8 * boxString.strlen ∧ 7 < 8 * boxString.strlen ∧ 3 ≤ (17 : Word).toNat / 8 + 1 ∧
    23 < 8 * boxString.strlen * ((17 : Word).toNat / 8 + 1) := by decide

/-- What the host does while a scroll of one character runs, each access between two ticks. -/
def meanwhile : List Input :=
  [.portWrite delayAddr 80, .tick, .portWrite cmdAddr 0, .tick] ++ List.replicate 5 .tick ++ [.portRead statusAddr, .tick]

/-- ScrollTiming, ScrollEndsOnTheLastCharacter: an interleaving that lasts as long as the scroll, one that does not begin,
and one that comes too late. -/
theorem witness_DuringScroll :
    DuringScroll (8 * boxString.strlen * (boxString.delay.toNat / 8 + 1)) meanwhile ∧
    meanwhile.count .tick = 8 * boxString.strlen * (boxString.delay.toNat / 8 + 1) ∧
    DuringScroll (8 * boxString.strlen * (boxString.delay.toNat / 8 + 1)) [] ∧
    ¬ DuringScroll (8 * boxString.strlen * (boxString.delay.toNat / 8 + 1)) (meanwhile ++ [.portRead statusAddr]) :=
  ⟨⟨by decide, by decide⟩, by decide, ⟨by decide, by decide⟩, fun h => absurd h.2 (by decide)⟩

/-- TickRunsOneColumnStep: no delay and a delay; the last tick of a delay and one before; the first column, the last
column of a character and of the string. -/
theorem witness_TickRunsOneColumnStep :
    scrolling.seq.dL = 0 ∧ ({ scrolling.seq with dL := 2 } : Seq).dL ≠ 0 ∧ waiting.seq.w = 1 ∧
    ({ waiting.seq with w := 2 } : Seq).w ≠ 1 ∧ scrolling.seq.c.val < 7 ∧ waiting.seq.c.val = 7 ∧
    waiting.strlen ≤ waiting.seq.i + 1 ∧
    ({ waiting with strlen := 2 } : State).seq.i + 1 < ({ waiting with strlen := 2 } : State).strlen := by decide

/-- A running scroll meets the invariant. -/
theorem inv_scrolling : Inv scrolling :=
  ⟨by simp [scrolling, boxString, State.reset], fun h => absurd h (by simp [scrolling, boxString, State.reset]), fun _ => by decide,
    by decide, List.length_replicate, by decide, fun h => absurd h (by simp [scrolling]), fun h => absurd h (by simp [scrolling, Seq.reset]), fun h => absurd h (by simp [scrolling, boxString, State.reset]),
    rfl, fun _ _ => rfl, fun _ => rfl, .inl rfl, fun _ => rfl, List.nil_suffix⟩

/-- ScrollAlwaysEnds, TickRunsOneColumnStep, StepKeepsTheInvariant. -/
theorem witness_ScrollAlwaysEnds :
    Inv scrolling ∧ scrolling.busy = true ∧ scrolling.seq.phase = .step ∧ waiting.seq.phase = .wait ∧
    State.reset.seq.phase = .idle ∧ ∃ t, step scrolling = .next t :=
  ⟨inv_scrolling, rfl, rfl, rfl, rfl, _, rfl⟩

/-- InvariantAtReset: the least and the greatest STRCAP. -/
theorem witness_InvariantAtReset : 0 < 2 ^ 32 ∧ 2 ^ 32 - 1 < 2 ^ 32 := by decide

/-- ExactlyTheseEmitFrames and OnlyCommandsAndColumnStepsWriteCells: a command, a column step and reset. -/
theorem witness_frames :
    afterInput (.portWrite cmdAddr 0x2800F800) ramp (fun s => (s.frames.length, decide (s.fb = ramp.fb))) = some (1, false) ∧
    afterInput .tick scrolling (fun s => (s.frames.length, decide (s.fb = scrolling.fb))) = some (1, false) ∧
    afterInput .reset ramp (fun s => decide (s.fb = ramp.fb)) = some false := by decide +kernel

/-- OnlyValueCommandsWriteResult and OnlySetorientWritesOrient: a command and reset. -/
theorem witness_result_orient :
    afterInput (.portWrite cmdAddr 0xA000001F) State.reset (·.result) = some 0xF800 ∧
    afterInput .reset { State.reset with result := 1, orient := .left } (fun s => (s.result, s.orient)) = some (0, .up) ∧
    afterInput (.portWrite cmdAddr 0x60000002) State.reset (·.orient) = some .down ∧
    writesResult (.getpx 7 7) = true ∧ operandError (.getpx 7 7) State.reset = none ∧
    Instr.getpx 7 7 ≠ .unpack 0 := by decide +kernel

/-- UnspecifiedContentsAreUnobservable: two different states that differ only in unspecified contents. -/
theorem witness_SameVisible :
    Inv scrolling ∧
    SameVisible scrolling { scrolling with
      stage := Vector.replicate 64 0xFFFF, seq := { scrolling.seq with w := 5, g := raster 0x2598 1 2 } } :=
  ⟨inv_scrolling, rfl, fun k h => absurd h (Nat.not_lt_zero k.val), rfl, fun _ _ => rfl, rfl, fun _ => ⟨rfl, rfl, rfl, rfl, rfl⟩,
    fun h => absurd h (by simp [scrolling]), fun h => absurd h (by simp [scrolling, Seq.reset])⟩

theorem witness_ResetValues : ({ scrolling with inputs := [.reset] } : State).inputs = .reset :: [] := rfl

/-- AttachZeroesTheRegion: the first attach and a second. -/
theorem witness_AttachZeroesTheRegion :
    (pending (.attach .device)).inputs = .attach .device :: [] ∧ (pending (.attach .device)).sink = .unattached ∧
    ({ pending (.attach .test) with sink := .attached .device } : State).sink ≠ .unattached := by
  refine ⟨rfl, rfl, by simp⟩

end Sys2Proof.Tests
end

section
/-! PROOF. The invariant at reset. -/

namespace Sys2Proof.Machine

/-- Right after reset nothing is going on: the sequencer is idle, ERR and FAULT are clear, the string and the staging
buffer are empty, and no sink is attached. So each clause of the invariant holds by the reset value it reads, and STRCAP
matters only for the clauses that name it (R6, R24, R161). -/
theorem inv_resetWith {strcap : Nat} (hcap : strcap < 2 ^ 32) : Inv (State.resetWith strcap) where
  fault_iff_angle := by simp
  fault_idle _ := rfl
  scroll_index hbusy := absurd rfl hbusy
  string_fits := Nat.zero_le strcap
  string_entries := List.length_replicate
  strcap_fits := hcap
  wait_count hwait := by simp at hwait
  glyph_loaded hshown := by simp at hshown
  overflow_full hovf := by simp at hovf
  region_wf := rfl
  region_bound _ _ := rfl
  region_device _ := rfl
  region_last_frame := .inl rfl
  received_test _ := rfl
  received_suffix := List.nil_suffix

/-- The default STRCAP is one whose count a 32-bit read can show (R6, R24). -/
theorem config_strcap_lt : Config.strcap < 2 ^ 32 := by decide

/-- Settles O58: `State.reset` is the reset state at the default STRCAP, so both parts are `inv_resetWith`. -/
theorem invariantAtReset : Obligations.InvariantAtReset :=
  ⟨inv_resetWith config_strcap_lt, fun _ hcap => inv_resetWith hcap⟩

end Sys2Proof.Machine
end

section
/-! SUPPORT. What the body of a command can do, and what one step can do. -/

namespace Sys2Proof.Machine

/-- What the body of a command can make of a ready block, with the condition under which each outcome comes (R55, R22,
R145). A command's own arguments appear only where a rule of the whole machine asks for them. -/
inductive CommandEffect : Instr → State → State → Prop
  /-- A coordinate out of range: ERR only (R85–R88). -/
  | coord {i : Instr} {s : State} (herr : operandError i s = some .coord) : CommandEffect i s (raiseError .coord s)
  /-- A wrong pixel count: the staging buffer is emptied, then ERR (R95, R126). -/
  | length {i : Instr} {s : State} (herr : operandError i s = some .length) :
      CommandEffect i s (raiseError .length (clearStage s))
  /-- An unsupported angle (R149). -/
  | angle {i : Instr} {s : State} (herr : operandError i s = some .angle) : CommandEffect i s (raiseFault .angle s)
  /-- A mutating command: a new framebuffer and one frame (R55). -/
  | draw {i : Instr} {s : State} (b : Frame) (hemit : emitsFrame i = true) (hflush : i ≠ .flush)
      (hok : operandError i s = none) : CommandEffect i s (mutate b s)
  /-- The same from the staging buffer, which is emptied (R95, R126). -/
  | drawStaged {i : Instr} {s : State} (b : Frame) (hemit : emitsFrame i = true) (hflush : i ≠ .flush)
      (hok : operandError i s = none) : CommandEffect i s (mutate b (clearStage s))
  /-- The same with a new orientation (R106). -/
  | setorient {s : State} (o : Orientation) (b : Frame) :
      CommandEffect (.setorient o) s (mutate b { s with orient := o })
  /-- A value command whose result has 16 bits (R22). -/
  | value {i : Instr} {s : State} (c : Colour) (hval : writesResult i = true) (hok : operandError i s = none) :
      CommandEffect i s (putResult c s)
  /-- UNPACK, whose result has 24 bits (R78). -/
  | unpack {s : State} (c : Colour) : CommandEffect (.unpack c) s { s with result := unpackColour c }
  | flush {s : State} : CommandEffect .flush s (emit s)
  | nop {s : State} : CommandEffect .nop s s
  | clrerr {s : State} : CommandEffect .clrerr s (clearError s)
  | dataclr {s : State} : CommandEffect .dataclr s (clearStage s)
  | strclr {s : State} : CommandEffect .strclr s { s with strlen := 0 }
  | scroll {s : State} : CommandEffect .scroll s (startScroll s)

/-- A pixel command has the effect of its body, or raises COORD. -/
theorem withCoord_effect {i : Instr} {s : State} {x y : Nat} {body : Fin 8 → Fin 8 → State → State}
    (hcheck : operandError i s = if x < 8 ∧ y < 8 then none else some .coord)
    (hbody : ∀ x y, operandError i s = none → CommandEffect i s (body x y s)) :
    CommandEffect i s (withCoord x y s body) := by
  by_cases hin : x < 8 ∧ y < 8
  · rw [withCoord_in s body hin.1 hin.2]
    exact hbody _ _ (by rw [hcheck, if_pos hin])
  · rw [withCoord_out s body hin]
    exact .coord (by rw [hcheck, if_neg hin])

/-- A command that consumes `n` staged pixels draws them, or raises LENGTH. -/
theorem commitStage_effect {i : Instr} {s : State} {n : Nat} {draw : State → Frame}
    (hcheck : operandError i s = if s.scnt.val = n ∧ s.sovf = false then none else some .length)
    (hemit : emitsFrame i = true) (hflush : i ≠ .flush) :
    CommandEffect i s (commitStage n s fun s => mutate (draw s) s) := by
  by_cases hfull : s.scnt.val = n ∧ s.sovf = false
  · rw [commitStage_full s _ hfull]
    exact .drawStaged _ hemit hflush (by rw [hcheck, if_pos hfull])
  · rw [commitStage_length s _ hfull]
    exact .length (by rw [hcheck, if_neg hfull])

/-- An angle has quarter turns exactly if it is a multiple of 90 (R104). -/
theorem quarterTurns_eq_none_iff (deg : Int) : quarterTurns deg = none ↔ deg % 90 ≠ 0 := by
  have hmod : deg % 360 % 90 = deg % 90 := by omega
  simp [quarterTurns, hmod]

/-- ROTATE's operand check is whether the angle has quarter turns (R104, R145). -/
theorem operandError_rotate (deg : Int) (s : State) :
    operandError (.rotate deg) s = if quarterTurns deg = none then some .angle else none := by
  simp only [operandError, quarterTurns_eq_none_iff, ne_eq, ite_not]

/-- Every command is one body behind the guard of R70, and `CommandEffect` says what the body can do. -/
theorem exec_eq_command (i : Instr) :
    ∃ body, (∀ s, exec i s = command s body) ∧ ∀ s, CommandEffect i s (body s) := by
  cases i with
  | nop => exact ⟨_, fun _ => rfl, fun _ => .nop⟩
  | setpx x y c => exact ⟨_, fun _ => rfl, fun s => withCoord_effect rfl fun _ _ hok => .draw _ rfl nofun hok⟩
  | getpx x y => exact ⟨_, fun _ => rfl, fun s => withCoord_effect rfl fun _ _ hok => .value _ rfl hok⟩
  | setpxa x y c => exact ⟨_, fun _ => rfl, fun s => withCoord_effect rfl fun _ _ hok => .draw _ rfl nofun hok⟩
  | getpxa x y => exact ⟨_, fun _ => rfl, fun s => withCoord_effect rfl fun _ _ hok => .value _ rfl hok⟩
  | setall c => exact ⟨_, fun _ => rfl, fun _ => .draw _ rfl nofun rfl⟩
  | setdata => exact ⟨_, fun _ => rfl, fun s => commitStage_effect rfl rfl nofun⟩
  | dataclr => exact ⟨_, fun _ => rfl, fun _ => .dataclr⟩
  | transpose => exact ⟨_, fun _ => rfl, fun _ => .draw _ rfl nofun rfl⟩
  | reflv => exact ⟨_, fun _ => rfl, fun _ => .draw _ rfl nofun rfl⟩
  | reflh => exact ⟨_, fun _ => rfl, fun _ => .draw _ rfl nofun rfl⟩
  | rotate deg =>
    refine ⟨_, fun _ => rfl, fun s => ?_⟩
    have hcheck := operandError_rotate deg s
    cases hturns : quarterTurns deg with
    | some k => exact .draw _ rfl nofun (hcheck.trans (if_neg (by simp [hturns])))
    | none => exact .angle (hcheck.trans (if_pos hturns))
  | setorient o => exact ⟨_, fun _ => rfl, fun _ => .setorient o _⟩
  | showchar cp => exact ⟨_, fun _ => rfl, fun _ => .draw _ rfl nofun rfl⟩
  | shiftc c => exact ⟨_, fun _ => rfl, fun _ => .draw _ rfl nofun rfl⟩
  | shifts => exact ⟨_, fun _ => rfl, fun s => commitStage_effect rfl rfl nofun⟩
  | scroll => exact ⟨_, fun _ => rfl, fun _ => .scroll⟩
  | strclr => exact ⟨_, fun _ => rfl, fun _ => .strclr⟩
  | clrerr => exact ⟨_, fun _ => rfl, fun _ => .clrerr⟩
  | flush => exact ⟨_, fun _ => rfl, fun _ => .flush⟩
  | pack r g b => exact ⟨_, fun _ => rfl, fun _ => .value _ rfl rfl⟩
  | unpack c => exact ⟨_, fun _ => rfl, fun _ => .unpack c⟩
  | insr c v => exact ⟨_, fun _ => rfl, fun _ => .value _ rfl rfl⟩
  | insg c v => exact ⟨_, fun _ => rfl, fun _ => .value _ rfl rfl⟩
  | insb c v => exact ⟨_, fun _ => rfl, fun _ => .value _ rfl rfl⟩

/-- A ready block runs the command's body. -/
theorem exec_ready_effect {i : Instr} {s t : State} (hready : Ready s) (h : exec i s = .next t) :
    CommandEffect i s t := by
  obtain ⟨body, hexec, heffect⟩ := exec_eq_command i
  rw [hexec, command_ready body hready] at h
  cases h
  exact heffect s

/-- What one step can make of a state, `{ s with inputs := rest }` being the state with the input taken off
(R15, R50). -/
inductive StepEffect (s : State) : State → Prop
  /-- Nothing is pending: the engine ticks (notes/assumptions/5.md). -/
  | idle (hin : s.inputs = []) : StepEffect s (tick s)
  | tick (rest : List Input) (hin : s.inputs = .tick :: rest) : StepEffect s (tick { s with inputs := rest })
  | read (a : PortAddr) (rest : List Input) (hin : s.inputs = .portRead a :: rest) :
      StepEffect s (portRead a { s with inputs := rest })
  | reset (rest : List Input) (hin : s.inputs = .reset :: rest) : StepEffect s (hardReset { s with inputs := rest })
  | attach (k : SinkKind) (rest : List Input) (hin : s.inputs = .attach k :: rest) (hsink : s.sink = .unattached) :
      StepEffect s { s with inputs := rest, sink := .attached k, region := [], received := [] }
  /-- A command runs in a ready block (R70). -/
  | command {w : Word} {i : Instr} {rest : List Input} {t : State} (hin : s.inputs = .portWrite cmdAddr w :: rest)
      (hdec : decode w = .command i) (hready : Ready s) (heffect : CommandEffect i { s with inputs := rest } t) :
      StepEffect s t
  /-- BUSY or ILLEGAL, before a command or an append (R70, R94, R129). -/
  | error (c : ErrCode) (rest : List Input) (hfault : s.fault = false) (hcode : c ≠ .angle) :
      StepEffect s (raiseError c { s with inputs := rest })
  /-- An append to the string buffer (R129). -/
  | str (cp : Codepoint) (rest : List Input) (hready : Ready s) :
      StepEffect s (pushCodepoint cp { s with inputs := rest })
  /-- An append to the staging buffer (R94). -/
  | data (p : Colour) (rest : List Input) (hroom : s.scnt.val < 64) :
      StepEffect s { s with
        inputs := rest, stage := s.stage.set s.scnt.val p hroom, scnt := ⟨s.scnt.val + 1, by omega⟩ }
  /-- A pixel dropped (R94). -/
  | overflow (rest : List Input) (hfull : s.scnt.val = 64) : StepEffect s { s with inputs := rest, sovf := true }
  /-- A write of FG, BG or DELAY, or one that is ignored (R41, R43, R44, R150). -/
  | control (fg bg : Colour) (delay : Word) (rest : List Input) :
      StepEffect s { s with inputs := rest, fg := fg, bg := bg, delay := delay }

/-- The registers that a host write can change (R41, R43). -/
def PortReg.writable : PortReg → Bool
  | .cmd | .fg | .bg | .delay | .str | .data => true
  | .status | .result | .strlen | .fbwin _ | .unmapped => false

section
variable {s : State} {a : PortAddr} {v : Word} {rest : List Input} (hin : s.inputs = .portWrite a v :: rest)
include hin

/-- A write is ignored in the fault state (R150). -/
theorem step_write_fault (hfault : s.fault = true) : step s = .next { s with inputs := rest } := by
  rw [step_input hin]
  exact if_pos hfault

/-- A write is ignored at every register that is not writable (R41, R43). -/
theorem step_write_ignored (hreg : (portReg a).writable = false) : step s = .next { s with inputs := rest } := by
  rw [step_input hin]
  simp only [perform, portWrite]
  split
  · rfl
  · cases hr : portReg a <;> simp [hr, PortReg.writable] at hreg ⊢

variable (hfault : s.fault = false)
include hfault

theorem step_write_cmd (hreg : portReg a = .cmd) : step s = writeCmd v { s with inputs := rest } := by
  simp [step_input hin, perform, portWrite, hfault, hreg]

theorem step_write_fg (hreg : portReg a = .fg) :
    step s = .next { s with inputs := rest, fg := v.extractLsb' 0 16 } := by
  simp [step_input hin, perform, portWrite, hfault, hreg]

theorem step_write_bg (hreg : portReg a = .bg) :
    step s = .next { s with inputs := rest, bg := v.extractLsb' 0 16 } := by
  simp [step_input hin, perform, portWrite, hfault, hreg]

theorem step_write_delay (hreg : portReg a = .delay) : step s = .next { s with inputs := rest, delay := v } := by
  simp [step_input hin, perform, portWrite, hfault, hreg]

theorem step_write_str (hreg : portReg a = .str) : step s = .next (writeStr v { s with inputs := rest }) := by
  simp [step_input hin, perform, portWrite, hfault, hreg]

theorem step_write_data (hreg : portReg a = .data) : step s = .next (writeData v { s with inputs := rest }) := by
  simp [step_input hin, perform, portWrite, hfault, hreg]

end

/-- What a write to STR can do outside the fault state. -/
theorem writeStr_effect {s : State} (v : Word) (rest : List Input) (hfault : s.fault = false) :
    StepEffect s (writeStr v { s with inputs := rest }) := by
  unfold writeStr
  split
  · exact .error .busy rest hfault nofun
  · rename_i hbusy
    split
    · exact .error .illegal rest hfault nofun
    · exact .str _ rest ⟨hfault, (busy_eq_false_iff s).1 (Bool.eq_false_of_not_eq_true hbusy)⟩

/-- What a write to DATA can do outside the fault state. -/
theorem writeData_effect {s : State} (v : Word) (rest : List Input) (hfault : s.fault = false) :
    StepEffect s (writeData v { s with inputs := rest }) := by
  unfold writeData
  split
  · exact .error .busy rest hfault nofun
  · split
    · exact .error .illegal rest hfault nofun
    · by_cases hroom : s.scnt.val < 64
      · rw [pushCell_of_lt s.stage s.scnt _ hroom]
        exact .data _ rest hroom
      · have hfull : s.scnt.val = 64 := by omega
        rw [pushCell_full s.stage s.scnt _ hfull]
        exact .overflow rest hfull

/-- What a command, or the error of a word that is none, can do outside the fault state: the guard's last two cases. -/
theorem command_effect {s t : State} {rest : List Input} {body : State → State} (hfault : s.fault = false)
    (hbody : Ready s → StepEffect s (body { s with inputs := rest }))
    (h : command { s with inputs := rest } body = .next t) : StepEffect s t := by
  cases h
  rcases guarded_cases { s with inputs := rest } body with ⟨htrue, _⟩ | ⟨_, _, hbusy⟩ | ⟨hready, hrun⟩
  · exact absurd (hfault.symm.trans htrue) nofun
  · rw [hbusy]; exact .error .busy rest hfault nofun
  · rw [hrun]; exact hbody hready

/-- What a write to CMD can do outside the fault state. -/
theorem writeCmd_effect {s t : State} {w : Word} {rest : List Input} (hin : s.inputs = .portWrite cmdAddr w :: rest)
    (hfault : s.fault = false) (h : writeCmd w { s with inputs := rest } = .next t) : StepEffect s t := by
  rcases writeCmd_cases w { s with inputs := rest } with ⟨i, hdec, hrun⟩ | ⟨why, _, hrun⟩
  · obtain ⟨body, hexec, heffect⟩ := exec_eq_command i
    rw [hrun, hexec] at h
    exact command_effect hfault (fun hready => .command hin hdec hready (heffect _)) h
  · rw [hrun] at h
    exact command_effect hfault (fun _ => .error .illegal rest hfault nofun) h

/-- What a port write can do, register by register. -/
theorem step_write_effect {s t : State} {a : PortAddr} {v : Word} {rest : List Input}
    (hin : s.inputs = .portWrite a v :: rest) (h : step s = .next t) : StepEffect s t := by
  have hignored : StepEffect s { s with inputs := rest } := .control s.fg s.bg s.delay rest
  cases hfault : s.fault with
  | true => rw [step_write_fault hin hfault] at h; cases h; exact hignored
  | false =>
    cases hreg : portReg a with
    | cmd =>
      obtain rfl := eq_cmdAddr_of_portReg hreg
      rw [step_write_cmd hin hfault hreg] at h
      exact writeCmd_effect hin hfault h
    | fg => rw [step_write_fg hin hfault hreg] at h; cases h; exact .control _ s.bg s.delay rest
    | bg => rw [step_write_bg hin hfault hreg] at h; cases h; exact .control s.fg _ s.delay rest
    | delay => rw [step_write_delay hin hfault hreg] at h; cases h; exact .control s.fg s.bg v rest
    | str => rw [step_write_str hin hfault hreg] at h; cases h; exact writeStr_effect v rest hfault
    | data => rw [step_write_data hin hfault hreg] at h; cases h; exact writeData_effect v rest hfault
    | status | result | strlen | fbwin | unmapped =>
      rw [step_write_ignored hin (by rw [hreg]; rfl)] at h; cases h; exact hignored

/-- Everything a step can do. -/
theorem step_effect {s t : State} (h : step s = .next t) : StepEffect s t := by
  cases hin : s.inputs with
  | nil =>
    rw [step_empty hin] at h; cases h
    exact .idle hin
  | cons e rest =>
    cases e with
    | portWrite a v => exact step_write_effect hin h
    | portRead a => rw [step_input hin] at h; cases h; exact .read a rest hin
    | tick => rw [step_input hin] at h; cases h; exact .tick rest hin
    | reset => rw [step_input hin] at h; cases h; exact .reset rest hin
    | attach k =>
      rw [step_input hin] at h
      cases hsink : s.sink with
      | unattached => simp only [perform, attachSink, hsink] at h; cases h; exact .attach k rest hin hsink
      | attached k' => simp only [perform, attachSink, hsink] at h; cases h

end Sys2Proof.Machine
end

section
/-! PROOF. Every step keeps the invariant. -/

namespace Sys2Proof.Machine

/-! ## Updates that the invariant allows -/

/-- No clause of the invariant reads these fields. -/
theorem Inv.unread_fields {s : State} (hinv : Inv s) (fb : Frame := s.fb) (orient : Orientation := s.orient)
    (fg : Colour := s.fg) (bg : Colour := s.bg) (delay : Word := s.delay) (result : Word := s.result)
    (stage : Vector Colour 64 := s.stage) (inputs : List Input := s.inputs) (replies : List Word := s.replies) :
    Inv { s with fb, orient, fg, bg, delay, result, stage, inputs, replies } := by
  cases hinv
  constructor <;> assumption

/-- Outside the fault state ERR takes every code but ANGLE. -/
theorem Inv.set_err {s : State} (hinv : Inv s) (hfault : s.fault = false) {c : ErrCode} (hc : c ≠ .angle) :
    Inv { s with err := c } :=
  { hinv with fault_iff_angle := by simp [hfault, hc] }

/-- The fault ANGLE is taken only while no scroll runs (R149, R150). -/
theorem inv_raiseFault_angle {s : State} (hinv : Inv s) (hidle : s.seq.phase = .idle) : Inv (raiseFault .angle s) :=
  { hinv with
    fault_iff_angle := by simp
    fault_idle := fun _ => hidle }

/-- A full buffer may have dropped a pixel, and an emptied or shorter one has not (R94). -/
theorem Inv.set_stage {s : State} (hinv : Inv s) (stage : Vector Colour 64) {scnt : Fin 65} {sovf : Bool}
    (hfull : sovf = true → scnt.val = 64) : Inv { s with stage, scnt, sovf } :=
  { hinv.unread_fields (stage := stage) with
    overflow_full := hfull }

theorem inv_clearStage {s : State} (hinv : Inv s) : Inv (clearStage s) :=
  hinv.set_stage s.stage (by simp)

/-- The sequencer may move and the string become shorter, if the clauses about a running scroll hold afterwards. -/
theorem Inv.set_seq {s : State} (hinv : Inv s) {q : Seq} {n : Nat} (hn : n ≤ s.strlen)
    (hidle : s.fault = true → q.phase = .idle) (hindex : q.phase ≠ .idle → q.i < n)
    (hwait : q.phase = .wait → 0 < q.w ∧ q.w ≤ q.dL)
    (hglyph : q.phase = .wait ∨ (q.phase = .step ∧ q.c ≠ 0) → q.g = raster (strAt s.strbuf q.i) q.fgL q.bgL) :
    Inv { s with seq := q, strlen := n } :=
  { hinv with
    fault_idle := hidle
    scroll_index := hindex
    string_fits := hn.trans hinv.string_fits
    wait_count := hwait
    glyph_loaded := hglyph }

/-- An idle sequencer asks nothing of the string. -/
theorem Inv.set_string {s : State} (hinv : Inv s) (hidle : s.seq.phase = .idle) {strbuf : List Codepoint} {n : Nat}
    (hn : n ≤ s.strcap) (hlen : strbuf.length = s.strcap) : Inv { s with strbuf, strlen := n } :=
  { hinv with
    scroll_index := fun hbusy => absurd hidle hbusy
    string_fits := hn
    string_entries := hlen
    glyph_loaded := fun hshown => by simp [hidle] at hshown }

theorem inv_pushCodepoint {s : State} (hinv : Inv s) (hready : Ready s) (cp : Codepoint) :
    Inv (pushCodepoint cp s) := by
  obtain ⟨hfault, hidle⟩ := hready
  by_cases hfull : s.strlen = s.strcap
  · rw [pushCodepoint_full cp hfull]
    exact hinv.set_err hfault nofun
  · rw [pushCodepoint_of_ne cp hfull]
    have hfits := hinv.string_fits
    exact hinv.set_string hidle (by omega) (by rw [List.length_set, hinv.string_entries])

theorem inv_startScroll {s : State} (hinv : Inv s) (hready : Ready s) : Inv (startScroll s) := by
  unfold startScroll
  split
  · exact hinv
  · rename_i hstr
    exact hinv.set_seq le_rfl (by simp [hready.1]) (fun _ => Nat.pos_of_ne_zero hstr) nofun (by simp)

/-! ## Emitting a frame -/

/-- One frame more: the device's region shows it, or the test sink has received it, or no sink has seen it
(R54, R57, R58). -/
theorem inv_emit {s : State} (hinv : Inv s) : Inv (emit s) := by
  have hem := emit_emittedOnce s
  have hlast : (emit s).frames.getLast? = some s.fb := by simp
  exact { hinv with
    region_wf := emit_region_wf hinv.region_wf
    region_bound := fun a ha => (hem.region_above a ha).trans (hinv.region_bound a ha)
    region_device := fun hsink => (hem.region_none hsink).trans (hinv.region_device hsink)
    region_last_frame := by
      by_cases hsink : s.sink = .attached .device
      · exact .inr ⟨s.fb, hlast, hem.region_image hsink hinv.region_wf⟩
      · exact .inl ((hem.region_none hsink).trans (hinv.region_device hsink))
    received_test := fun hsink => (hem.received_none hsink).trans (hinv.received_test hsink)
    received_suffix := by
      by_cases hsink : s.sink = .attached .test
      · rw [hem.received_frame hsink, hem.frames]
        exact List.suffix_append_self_iff.2 hinv.received_suffix
      · rw [hem.received_none hsink, hinv.received_test hsink]
        exact List.nil_suffix }

theorem inv_mutate {s : State} (hinv : Inv s) (b : Frame) : Inv (mutate b s) :=
  inv_emit (hinv.unread_fields (fb := b))

theorem inv_columnStep {s : State} (hinv : Inv s) : Inv (columnStep s) := by
  unfold columnStep
  exact inv_mutate hinv _

/-! ## Ticks -/

/-- A running scroll in whose blob the current character stands. -/
structure GlyphShown (s : State) : Prop where
  running : s.seq.phase ≠ .idle
  loaded : s.seq.g = raster (strAt s.strbuf s.seq.i) s.seq.fgL s.seq.bgL

/-- A column step leaves the sequencer and the string alone. -/
theorem GlyphShown.columnStep {s : State} (hshown : GlyphShown s) : GlyphShown (columnStep s) :=
  ⟨by simpa using hshown.running, by simpa using hshown.loaded⟩

/-- Advancing keeps the character's blob within the character, and drops it with the next one (R134). It does not read
the delay counter. -/
theorem inv_advanceScroll {s : State} (hinv : Inv s) (hshown : GlyphShown s) (w : Ticks) :
    Inv (advanceScroll { s with seq := { s.seq with w := w } }) := by
  have hnofault : s.fault ≠ true := fun hfault => hshown.running (hinv.fault_idle hfault)
  rcases advanceScroll_cases { s with seq := { s.seq with w := w } } with
    ⟨_, heq⟩ | ⟨_, hnext, heq⟩ | ⟨_, _, heq⟩ <;> rw [heq]
  · exact hinv.set_seq le_rfl (fun hfault => absurd hfault hnofault)
      (fun _ => hinv.scroll_index hshown.running) nofun (fun _ => hshown.loaded)
  · exact hinv.set_seq le_rfl (fun hfault => absurd hfault hnofault) (fun _ => hnext) nofun (by simp)
  · exact hinv.set_seq (Nat.zero_le _) (fun _ => rfl) (by simp) nofun (by simp)

/-- Waiting after a column needs a delay, of which no tick has passed yet (R133). -/
theorem inv_afterColumn {s : State} (hinv : Inv s) (hshown : GlyphShown s) : Inv (afterColumn s) := by
  unfold afterColumn
  split
  · exact inv_advanceScroll hinv hshown s.seq.w
  · rename_i hdelay
    have hpos : 0 < s.seq.dL := (BitVec.pos_iff_ne_zero _).2 hdelay
    exact hinv.set_seq le_rfl (fun hfault => absurd (hinv.fault_idle hfault) hshown.running)
      (fun _ => hinv.scroll_index hshown.running) (fun _ => ⟨hpos, BitVec.le_refl _⟩) (fun _ => hshown.loaded)

/-- After the load the blob is the current character's: it was loaded now or with an earlier column (R133). -/
theorem glyphShown_loadGlyph {s : State} (hinv : Inv s) (hstep : s.seq.phase = .step) :
    GlyphShown (loadGlyph s) := by
  refine ⟨by simp [loadGlyph_seq, hstep], ?_⟩
  simp only [loadGlyph_seq, loadGlyph_strbuf]
  split
  · rfl
  · rename_i hc
    exact hinv.glyph_loaded (.inr ⟨hstep, hc⟩)

theorem inv_loadGlyph {s : State} (hinv : Inv s) (hstep : s.seq.phase = .step) : Inv (loadGlyph s) := by
  have hshown := glyphShown_loadGlyph hinv hstep
  have hphase : (loadGlyph s).seq.phase = .step := by simp [loadGlyph_seq, hstep]
  have hi : (loadGlyph s).seq.i = s.seq.i := by simp [loadGlyph_seq]
  rw [loadGlyph_onlySeq]
  refine hinv.set_seq le_rfl (fun hfault => ?_) (fun _ => ?_) (by simp [hphase]) (fun _ => ?_)
  · exact absurd (hinv.fault_idle hfault) (by simp [hstep])
  · exact hi ▸ hinv.scroll_index (by simp [hstep])
  · exact hshown.loaded.trans (by rw [loadGlyph_strbuf])

/-- A tick of the delay counter leaves at least one tick, or advances (R133). -/
theorem inv_waitTick {s : State} (hinv : Inv s) (hwait : s.seq.phase = .wait) : Inv (waitTick s) := by
  obtain ⟨hpos, hle⟩ := hinv.wait_count hwait
  have hshown : GlyphShown s := ⟨by simp [hwait], hinv.glyph_loaded (.inl hwait)⟩
  unfold waitTick
  split
  · exact inv_advanceScroll hinv hshown _
  · rename_i hleft
    have hle' : s.seq.w - 1 ≤ s.seq.dL := by bv_omega
    exact hinv.set_seq le_rfl (fun hfault => absurd (hinv.fault_idle hfault) hshown.running)
      (fun _ => hinv.scroll_index hshown.running) (fun _ => ⟨(BitVec.pos_iff_ne_zero _).2 hleft, hle'⟩)
      (fun _ => hshown.loaded)

theorem inv_tick {s : State} (hinv : Inv s) : Inv (tick s) := by
  cases hphase : s.seq.phase with
  | idle => rw [tick_idle hphase]; exact hinv
  | wait => rw [tick_wait hphase]; exact inv_waitTick hinv hphase
  | step =>
    rw [tick_step hphase]
    have hshown := (glyphShown_loadGlyph hinv hphase).columnStep
    exact inv_afterColumn (inv_columnStep (inv_loadGlyph hinv hphase)) hshown

/-! ## Reset, attaching, commands and steps -/

/-- Reset leaves the sink's side and the stream as they are (R161; notes/assumptions/14.md). -/
theorem inv_hardReset {s : State} (hinv : Inv s) : Inv (hardReset s) :=
  { inv_resetWith hinv.strcap_fits with
    region_wf := hinv.region_wf
    region_bound := hinv.region_bound
    region_device := hinv.region_device
    region_last_frame := hinv.region_last_frame
    received_test := hinv.received_test
    received_suffix := hinv.received_suffix }

/-- A sink attached now has seen no frame (R57, R58). -/
theorem inv_attach {s : State} (hinv : Inv s) (k : SinkKind) :
    Inv { s with sink := .attached k, region := [], received := [] } :=
  { hinv with
    region_wf := rfl
    region_bound := fun _ _ => rfl
    region_device := fun _ => rfl
    region_last_frame := .inl rfl
    received_test := fun _ => rfl
    received_suffix := List.nil_suffix }

theorem CommandEffect.inv {i : Instr} {s t : State} (heffect : CommandEffect i s t) (hinv : Inv s)
    (hready : Ready s) : Inv t := by
  obtain ⟨hfault, hidle⟩ := hready
  cases heffect with
  | coord => exact hinv.set_err hfault nofun
  | length => exact (inv_clearStage hinv).set_err hfault nofun
  | angle => exact inv_raiseFault_angle hinv hidle
  | draw b => exact inv_mutate hinv b
  | drawStaged b => exact inv_mutate (inv_clearStage hinv) b
  | setorient o b =>
    exact inv_mutate (hinv.unread_fields (orient := o)) b
  | value c => exact hinv.unread_fields (result := _)
  | unpack c => exact hinv.unread_fields (result := _)
  | flush => exact inv_emit hinv
  | nop => exact hinv
  | clrerr => exact hinv.set_err hfault nofun
  | dataclr => exact inv_clearStage hinv
  | strclr => exact hinv.set_string hidle (Nat.zero_le _) hinv.string_entries
  | scroll => exact inv_startScroll hinv ⟨hfault, hidle⟩

theorem StepEffect.inv {s t : State} (heffect : StepEffect s t) (hinv : Inv s) : Inv t := by
  have htaken : ∀ rest, Inv { s with inputs := rest } := fun rest =>
    hinv.unread_fields (inputs := rest)
  cases heffect with
  | idle => exact inv_tick hinv
  | tick rest => exact inv_tick (htaken rest)
  | read a rest => exact hinv.unread_fields (inputs := rest) (replies := _)
  | reset rest => exact inv_hardReset (htaken rest)
  | attach k rest => exact inv_attach (htaken rest) k
  | command _ _ hready hcmd => exact hcmd.inv (htaken _) hready
  | error c rest hfault hcode => exact (htaken rest).set_err hfault hcode
  | str cp rest hready => exact inv_pushCodepoint (htaken rest) hready cp
  | data p rest hroom =>
    have hnone : s.sovf ≠ true := fun hovf => by have := hinv.overflow_full hovf; omega
    exact (htaken rest).set_stage _ (fun hovf => absurd hovf hnone)
  | overflow rest hfull => exact (htaken rest).set_stage s.stage (fun _ => hfull)
  | control fg bg delay rest =>
    exact hinv.unread_fields (fg := fg) (bg := bg) (delay := delay) (inputs := rest)

/-- Settles O59: each effect of a step keeps the invariant. -/
theorem stepKeepsTheInvariant : Obligations.StepKeepsTheInvariant :=
  fun _ _ hinv hstep => (step_effect hstep).inv hinv

end Sys2Proof.Machine
end

section
/-! PROOF. Unspecified contents cannot be observed. -/

namespace Sys2Proof.Machine

/-! ## Starting a scroll -/

theorem startScroll_empty {s : State} (hempty : s.strlen = 0) : startScroll s = s := if_pos hempty

theorem startScroll_of_ne {s : State} (hstr : s.strlen ≠ 0) :
    startScroll s = { s with seq := { s.seq with
      phase := .step, i := 0, c := 0, fgL := s.fg, bgL := s.bg, dL := columnDelay s.delay } } := if_neg hstr

/-! ## States that differ only in unspecified contents -/

/-- Such a state is the other one with some STAGE, STRBUF and sequencer. -/
theorem SameVisible.exists_hidden {s t : State} (hsame : SameVisible s t) :
    ∃ stage strbuf seq, t = { s with stage, strbuf, seq } :=
  ⟨_, _, _, hsame.rest⟩

/-- A field that is not hidden is the same. -/
theorem SameVisible.visible_eq {α : Type} {s t : State} (hsame : SameVisible s t) (f : State → α)
    (hf : ∀ stage strbuf seq, f { s with stage, strbuf, seq } = f s) : f t = f s := by
  obtain ⟨stage, strbuf, seq, heq⟩ := hsame.exists_hidden
  rw [heq, hf]

section
variable {s t : State} (hsame : SameVisible s t)
include hsame

theorem SameVisible.busy_eq : t.busy = s.busy := by unfold State.busy; rw [hsame.phase]

theorem SameVisible.fault_eq : t.fault = s.fault := hsame.visible_eq State.fault fun _ _ _ => rfl

theorem SameVisible.strlen_eq : t.strlen = s.strlen := hsame.visible_eq State.strlen fun _ _ _ => rfl

theorem SameVisible.scnt_eq : t.scnt = s.scnt := hsame.visible_eq State.scnt fun _ _ _ => rfl

/-- Every offset reads the same: STATUS reads the sequencer's phase only, and no offset reads STAGE or STRBUF (R40). -/
theorem SameVisible.portValue_eq (a : PortAddr) : portValue a t = portValue a s := by
  have hbusy := hsame.busy_eq
  obtain ⟨stage, strbuf, seq, rfl⟩ := hsame.exists_hidden
  have hstatus : statusWord { s with stage, strbuf, seq } = statusWord s := by unfold statusWord; rw [hbusy]
  unfold portValue
  rw [hstatus]

/-- An operation that neither reads nor writes the hidden parts, and lengthens no buffer, shows nothing new. -/
theorem SameVisible.map (f : State → State) (hstage : (f s).stage = s.stage) (hstrbuf : (f s).strbuf = s.strbuf)
    (hseq : (f s).seq = s.seq) (hscnt : (f s).scnt.val ≤ s.scnt.val) (hstrlen : (f s).strlen ≤ s.strlen)
    (hhidden : ∀ stage strbuf seq, f { s with stage, strbuf, seq } = { f s with stage, strbuf, seq }) :
    SameVisible (f s) (f t) := by
  have heq : f t = { f s with stage := t.stage, strbuf := t.strbuf, seq := t.seq } :=
    (congrArg f hsame.rest).trans (hhidden _ _ _)
  rw [heq]
  constructor
  case rest => rfl
  all_goals simp only [hstage, hstrbuf, hseq]
  case stage => exact fun k hk => hsame.stage k (hk.trans_le hscnt)
  case entries => exact hsame.entries
  case strbuf => exact fun k hk => hsame.strbuf k (hk.trans_le hstrlen)
  case phase => exact hsame.phase
  case running => exact hsame.running
  case waiting => exact hsame.waiting
  case glyph => exact hsame.glyph

/-- Both sequencers may move, and both strings be shortened, if the sequencers agree afterwards. -/
theorem SameVisible.set_seq {q q' : Seq} {n n' : Nat} (hn : n ≤ s.strlen) (hn' : n' = n)
    (hphase : q'.phase = q.phase)
    (hrunning : q.phase ≠ .idle → q'.i = q.i ∧ q'.c = q.c ∧ q'.fgL = q.fgL ∧ q'.bgL = q.bgL ∧ q'.dL = q.dL)
    (hwaiting : q.phase = .wait → q'.w = q.w)
    (hglyph : q.phase = .wait ∨ (q.phase = .step ∧ q.c ≠ 0) → q'.g = q.g) :
    SameVisible { s with seq := q, strlen := n } { t with seq := q', strlen := n' } := by
  subst hn'
  obtain ⟨stage, strbuf, seq, rfl⟩ := hsame.exists_hidden
  exact {
    rest := rfl
    stage := hsame.stage
    entries := hsame.entries
    strbuf := fun k hk => hsame.strbuf k (hk.trans_le hn)
    phase := hphase
    running := hrunning
    waiting := hwaiting
    glyph := hglyph }

theorem SameVisible.set_err (c : ErrCode) : SameVisible (raiseError c s) (raiseError c t) :=
  hsame.map (raiseError c) rfl rfl rfl le_rfl le_rfl fun _ _ _ => rfl

theorem SameVisible.set_inputs (rest : List Input) :
    SameVisible { s with inputs := rest } { t with inputs := rest } :=
  hsame.map (fun u => { u with inputs := rest }) rfl rfl rfl le_rfl le_rfl fun _ _ _ => rfl

theorem SameVisible.clearStage : SameVisible (clearStage s) (clearStage t) :=
  hsame.map Machine.clearStage rfl rfl rfl (Nat.zero_le _) le_rfl fun _ _ _ => rfl

theorem SameVisible.mutate (b : Frame) : SameVisible (mutate b s) (mutate b t) :=
  hsame.map (Machine.mutate b) rfl rfl rfl le_rfl le_rfl fun _ _ _ => rfl

/-! ## The commands -/

theorem SameVisible.withCoord {x y : Nat} {body : Fin 8 → Fin 8 → State → State}
    (hbody : ∀ x y, SameVisible (body x y s) (body x y t)) :
    SameVisible (withCoord x y s body) (withCoord x y t body) := by
  by_cases hin : x < 8 ∧ y < 8
  · rw [withCoord_in s body hin.1 hin.2, withCoord_in t body hin.1 hin.2]
    exact hbody _ _
  · rw [withCoord_out s body hin, withCoord_out t body hin]
    exact hsame.set_err .coord

/-- A commit reads only pixels below SCNT (R23, R95, R126). -/
theorem SameVisible.commitStage {n : Nat} {draw : State → Frame}
    (hdraw : s.scnt.val = n → draw (Machine.clearStage t) = draw (Machine.clearStage s)) :
    SameVisible (commitStage n s fun u => Machine.mutate (draw u) u)
      (commitStage n t fun u => Machine.mutate (draw u) u) := by
  have hsovf : t.sovf = s.sovf := hsame.visible_eq State.sovf fun _ _ _ => rfl
  by_cases hfull : s.scnt.val = n ∧ s.sovf = false
  · rw [commitStage_full s _ hfull, commitStage_full t _ (by rwa [hsame.scnt_eq, hsovf]), hdraw hfull.1]
    exact hsame.clearStage.mutate _
  · rw [commitStage_length s _ hfull, commitStage_length t _ (by rwa [hsame.scnt_eq, hsovf])]
    exact hsame.clearStage.set_err .length

/-- A full staging buffer is visible as a whole. -/
theorem SameVisible.stage_eq (hfull : s.scnt.val = 64) : t.stage = s.stage :=
  Vector.ext fun k hk => hsame.stage ⟨k, hk⟩ (by omega)

/-- The start of a scroll sets every field that its first column step reads (R132, R133). -/
theorem SameVisible.startScroll : SameVisible (startScroll s) (startScroll t) := by
  have hfg : t.fg = s.fg := hsame.visible_eq State.fg fun _ _ _ => rfl
  have hbg : t.bg = s.bg := hsame.visible_eq State.bg fun _ _ _ => rfl
  have hdelay : t.delay = s.delay := hsame.visible_eq State.delay fun _ _ _ => rfl
  by_cases hempty : s.strlen = 0
  · rwa [startScroll_empty hempty, startScroll_empty (hsame.strlen_eq.trans hempty)]
  · rw [startScroll_of_ne hempty, startScroll_of_ne (by rwa [hsame.strlen_eq])]
    exact hsame.set_seq le_rfl hsame.strlen_eq rfl (fun _ => ⟨rfl, rfl, hfg, hbg, by simp only [hdelay]⟩)
      (by simp) (by simp)

end

/-! ## Outcomes -/

/-- Two outcomes that the host cannot tell apart. -/
def SameOutcome : Host.Outcome State Fault Refusal → Host.Outcome State Fault Refusal → Prop
  | .next s, .next t => SameVisible s t
  | .refused r, .refused r' => r' = r
  | _, _ => False

theorem SameVisible.refl (s : State) : SameVisible s s :=
  ⟨rfl, fun _ _ => rfl, rfl, fun _ _ => rfl, rfl, fun _ => ⟨rfl, rfl, rfl, rfl, rfl⟩, fun _ => rfl, fun _ => rfl⟩

section
variable {s t : State} (hsame : SameVisible s t)
include hsame

/-- The guard reads FAULT and BUSY, which are visible (R70). -/
theorem SameVisible.command {body : State → State} (hbody : SameVisible (body s) (body t)) :
    SameOutcome (command s body) (command t body) := by
  show SameVisible (guarded s body) (guarded t body)
  unfold guarded
  rw [hsame.fault_eq, hsame.busy_eq]
  split
  · exact hsame
  · split
    · exact hsame.set_err .busy
    · exact hbody

/-- A command whose body draws in a framebuffer that it makes of visible fields only. -/
theorem SameVisible.command_mutate (draw : State → Frame)
    (hdraw : ∀ stage strbuf seq, draw { s with stage, strbuf, seq } = draw s) :
    SameOutcome (Machine.command s fun u => Machine.mutate (draw u) u)
      (Machine.command t fun u => Machine.mutate (draw u) u) := by
  refine hsame.command ?_
  rw [hsame.visible_eq draw hdraw]
  exact hsame.mutate (draw s)

/-- RESULT is visible, and takes one value in both states. -/
theorem SameVisible.set_result (r : Word) : SameVisible { s with result := r } { t with result := r } :=
  hsame.map (fun u => { u with result := r }) rfl rfl rfl le_rfl le_rfl fun _ _ _ => rfl

theorem SameVisible.exec (i : Instr) : SameOutcome (exec i s) (exec i t) := by
  have hfb : t.fb = s.fb := hsame.visible_eq State.fb fun _ _ _ => rfl
  have horient : t.orient = s.orient := hsame.visible_eq State.orient fun _ _ _ => rfl
  cases i with
  | nop => exact hsame.command hsame
  | setpx x y c =>
    refine hsame.command (hsame.withCoord fun x y => ?_)
    rw [hfb, horient]
    exact hsame.mutate _
  | getpx x y =>
    refine hsame.command (hsame.withCoord fun x y => ?_)
    rw [hfb, horient]
    exact hsame.set_result _
  | setpxa x y c =>
    refine hsame.command (hsame.withCoord fun x y => ?_)
    rw [hfb]
    exact hsame.mutate _
  | getpxa x y =>
    refine hsame.command (hsame.withCoord fun x y => ?_)
    rw [hfb]
    exact hsame.set_result _
  | setall c => exact hsame.command_mutate _ fun _ _ _ => rfl
  | setdata => exact hsame.command (hsame.commitStage hsame.stage_eq)
  | dataclr => exact hsame.command hsame.clearStage
  | transpose => exact hsame.command_mutate _ fun _ _ _ => rfl
  | reflv => exact hsame.command_mutate _ fun _ _ _ => rfl
  | reflh => exact hsame.command_mutate _ fun _ _ _ => rfl
  | rotate deg =>
    refine hsame.command ?_
    cases quarterTurns deg with
    | some k =>
      rw [hfb]
      exact hsame.mutate _
    | none => exact hsame.map (raiseFault .angle) rfl rfl rfl le_rfl le_rfl fun _ _ _ => rfl
  | setorient o =>
    refine hsame.command ?_
    rw [hfb, horient]
    exact hsame.map (fun u => Machine.mutate _ { u with orient := o }) rfl rfl rfl le_rfl le_rfl fun _ _ _ => rfl
  | showchar cp => exact hsame.command_mutate _ fun _ _ _ => rfl
  | shiftc c => exact hsame.command_mutate _ fun _ _ _ => rfl
  | shifts =>
    refine hsame.command (hsame.commitStage fun hcount => ?_)
    have hcolumn : ∀ y : Fin 8, cell t.stage ⟨y.val, by omega⟩ = cell s.stage ⟨y.val, by omega⟩ :=
      fun y => hsame.stage _ (by rw [hcount]; exact y.isLt)
    simp only [clearStage_orient, clearStage_stage, clearStage_fb, hcolumn, hfb, horient]
  | scroll => exact hsame.command hsame.startScroll
  | strclr =>
    exact hsame.command
      (hsame.map (fun u => { u with strlen := 0 }) rfl rfl rfl le_rfl (Nat.zero_le _) fun _ _ _ => rfl)
  | clrerr => exact hsame.command (hsame.set_err .none)
  | flush => exact hsame.command_mutate State.fb fun _ _ _ => rfl
  | pack r g b => exact hsame.command (hsame.set_result _)
  | unpack c => exact hsame.command (hsame.set_result _)
  | insr c v => exact hsame.command (hsame.set_result _)
  | insg c v => exact hsame.command (hsame.set_result _)
  | insb c v => exact hsame.command (hsame.set_result _)

/-! ## Ticks -/

/-- Where the blobs agree too, two running scrolls advance alike (R134). -/
theorem SameVisible.advanceScroll (hrunning : s.seq.phase ≠ .idle) (hg : t.seq.g = s.seq.g) :
    SameVisible (advanceScroll s) (advanceScroll t) := by
  obtain ⟨hi, hc, hfg, hbg, hdL⟩ := hsame.running hrunning
  have hlen := hsame.strlen_eq
  unfold Machine.advanceScroll
  by_cases hcolumn : s.seq.c.val < 7
  · rw [dif_pos hcolumn, dif_pos (by rwa [hc])]
    exact hsame.set_seq le_rfl hlen rfl (fun _ => ⟨hi, by simp only [hc], hfg, hbg, hdL⟩) nofun (fun _ => hg)
  · rw [dif_neg hcolumn, dif_neg (by rwa [hc])]
    by_cases hnext : s.seq.i + 1 < s.strlen
    · rw [if_pos hnext, if_pos (by rwa [hi, hlen])]
      exact hsame.set_seq le_rfl hlen rfl (fun _ => ⟨by simp only [hi], rfl, hfg, hbg, hdL⟩) nofun (fun _ => hg)
    · rw [if_neg hnext, if_neg (by rwa [hi, hlen])]
      exact hsame.set_seq (Nat.zero_le _) rfl rfl (fun hbusy => absurd rfl hbusy) nofun (fun _ => hg)

/-- A wait count is set before it is read (R133). -/
theorem SameVisible.afterColumn (hrunning : s.seq.phase ≠ .idle) (hg : t.seq.g = s.seq.g) :
    SameVisible (afterColumn s) (afterColumn t) := by
  obtain ⟨hi, hc, hfg, hbg, hdL⟩ := hsame.running hrunning
  unfold Machine.afterColumn
  by_cases hdelay : s.seq.dL = 0
  · rw [if_pos hdelay, if_pos (hdL.trans hdelay)]
    exact hsame.advanceScroll hrunning hg
  · rw [if_neg hdelay, if_neg (by rwa [hdL])]
    exact hsame.set_seq le_rfl hsame.strlen_eq rfl (fun _ => ⟨hi, hc, hfg, hbg, hdL⟩) (fun _ => hdL) (fun _ => hg)

theorem SameVisible.waitTick (hwait : s.seq.phase = .wait) : SameVisible (waitTick s) (waitTick t) := by
  have hrunning : s.seq.phase ≠ .idle := by simp [hwait]
  have hw := hsame.waiting hwait
  have hg := hsame.glyph (.inl hwait)
  have hcounted : SameVisible { s with seq := { s.seq with w := s.seq.w - 1 } }
      { t with seq := { t.seq with w := t.seq.w - 1 } } :=
    hsame.set_seq le_rfl hsame.strlen_eq hsame.phase hsame.running (fun _ => by simp only [hw]) (fun _ => hg)
  unfold Machine.waitTick
  by_cases hlast : s.seq.w - 1 = 0
  · rw [if_pos hlast, if_pos (by rwa [hw])]
    exact hcounted.advanceScroll hrunning hg
  · rw [if_neg hlast, if_neg (by rwa [hw])]
    exact hcounted

/-- The blob that a column step reads is loaded now, from a character of the string, or was loaded with column 0
(R133). -/
theorem SameVisible.loadGlyph (hstep : s.seq.phase = .step) (hindex : s.seq.i < s.strlen) :
    SameVisible (loadGlyph s) (loadGlyph t) ∧ (Machine.loadGlyph t).seq.g = (Machine.loadGlyph s).seq.g := by
  obtain ⟨hi, hc, hfg, hbg, hdL⟩ := hsame.running (by simp [hstep])
  have hchar : strAt t.strbuf t.seq.i = strAt s.strbuf s.seq.i := hi ▸ hsame.strbuf s.seq.i hindex
  have hg : (Machine.loadGlyph t).seq.g = (Machine.loadGlyph s).seq.g := by
    simp only [loadGlyph_seq, hc, hchar, hfg, hbg]
    split
    · rfl
    · rename_i hcolumn
      exact hsame.glyph (.inr ⟨hstep, hcolumn⟩)
  refine ⟨?_, hg⟩
  rw [loadGlyph_onlySeq s, loadGlyph_onlySeq t]
  refine hsame.set_seq le_rfl hsame.strlen_eq ?_ ?_ ?_ (fun _ => hg) <;> simp only [loadGlyph_seq]
  · exact hsame.phase
  · exact hsame.running
  · exact hsame.waiting

theorem SameVisible.columnStep (hrunning : s.seq.phase ≠ .idle) (hg : t.seq.g = s.seq.g) :
    SameVisible (columnStep s) (columnStep t) := by
  have hfb : t.fb = s.fb := hsame.visible_eq State.fb fun _ _ _ => rfl
  have horient : t.orient = s.orient := hsame.visible_eq State.orient fun _ _ _ => rfl
  obtain ⟨-, hc, -⟩ := hsame.running hrunning
  unfold Machine.columnStep
  rw [hfb, horient, hg, hc]
  exact hsame.mutate _

theorem SameVisible.tick (hinv : Inv s) : SameVisible (tick s) (tick t) := by
  cases hphase : s.seq.phase with
  | idle => rwa [tick_idle hphase, tick_idle (hsame.phase.trans hphase)]
  | wait =>
    rw [tick_wait hphase, tick_wait (hsame.phase.trans hphase)]
    exact hsame.waitTick hphase
  | step =>
    rw [tick_step hphase, tick_step (hsame.phase.trans hphase)]
    have hindex := hinv.scroll_index (by simp [hphase])
    obtain ⟨hloaded, hg⟩ := hsame.loadGlyph hphase hindex
    have hrunning := (glyphShown_loadGlyph hinv hphase).running
    exact (hloaded.columnStep hrunning hg).afterColumn (by simpa using hrunning) (by simpa using hg)

/-! ## Port accesses, reset and attaching -/

/-- An append to STRBUF makes one entry visible, which both buffers have (R24, R129). -/
theorem SameVisible.pushCodepoint (hinv : Inv s) (cp : Codepoint) :
    SameVisible (pushCodepoint cp s) (pushCodepoint cp t) := by
  have hcap : t.strcap = s.strcap := hsame.visible_eq State.strcap fun _ _ _ => rfl
  have hlen := hsame.strlen_eq
  by_cases hfull : s.strlen = s.strcap
  · rw [pushCodepoint_full cp hfull, pushCodepoint_full cp (by rwa [hlen, hcap])]
    exact hsame.set_err .strovf
  · have hroom : s.strlen < s.strbuf.length := by
      have := hinv.string_fits
      have := hinv.string_entries
      omega
    have hroom' : s.strlen < t.strbuf.length := hsame.entries ▸ hroom
    rw [pushCodepoint_of_ne cp hfull, pushCodepoint_of_ne cp (by rwa [hlen, hcap]), hlen]
    have hentry : ∀ k, k < s.strlen + 1 → strAt (t.strbuf.set s.strlen cp) k = strAt (s.strbuf.set s.strlen cp) k := by
      intro k hk
      by_cases hnew : k = s.strlen
      · rw [hnew, strAt_set_self _ cp hroom, strAt_set_self _ cp hroom']
      · rw [strAt_set_other _ cp hnew, strAt_set_other _ cp hnew]
        exact hsame.strbuf k (by omega)
    have hentries : (t.strbuf.set s.strlen cp).length = (s.strbuf.set s.strlen cp).length := by
      rw [List.length_set, List.length_set, hsame.entries]
    obtain ⟨stage, strbuf, seq, rfl⟩ := hsame.exists_hidden
    exact { hsame with
      rest := rfl
      entries := hentries
      strbuf := hentry }

/-- An append to STAGE makes one pixel visible (R23, R94). -/
theorem SameVisible.set_stage (p : Colour) (hroom : s.scnt.val < 64) (hroom' : t.scnt.val < 64) :
    SameVisible { s with stage := s.stage.set s.scnt.val p hroom, scnt := ⟨s.scnt.val + 1, by omega⟩ }
      { t with stage := t.stage.set t.scnt.val p hroom', scnt := ⟨t.scnt.val + 1, by omega⟩ } := by
  obtain ⟨stage, strbuf, seq, rfl⟩ := hsame.exists_hidden
  have hpixel : ∀ k : Fin 64, k.val < s.scnt.val + 1 →
      cell (setCell stage ⟨s.scnt.val, hroom⟩ p) k = cell (setCell s.stage ⟨s.scnt.val, hroom⟩ p) k := by
    intro k hk
    by_cases hnew : k = ⟨s.scnt.val, hroom⟩
    · rw [hnew, setCell_self, setCell_self]
    · rw [setCell_other _ p hnew, setCell_other _ p hnew]
      have : k.val ≠ s.scnt.val := fun heq => hnew (Fin.ext heq)
      exact hsame.stage k (by omega)
  exact { hsame with
    rest := rfl
    stage := hpixel }

theorem SameVisible.writeStr (hinv : Inv s) (v : Word) : SameVisible (writeStr v s) (writeStr v t) := by
  unfold Machine.writeStr
  rw [hsame.busy_eq]
  split
  · exact hsame.set_err .busy
  · split
    · exact hsame.set_err .illegal
    · exact hsame.pushCodepoint hinv _

theorem SameVisible.writeData (v : Word) : SameVisible (writeData v s) (writeData v t) := by
  unfold Machine.writeData
  rw [hsame.busy_eq]
  split
  · exact hsame.set_err .busy
  · split
    · exact hsame.set_err .illegal
    · by_cases hroom : s.scnt.val < 64
      · have hroom' : t.scnt.val < 64 := by rwa [hsame.scnt_eq]
        rw [pushCell_of_lt s.stage s.scnt _ hroom, pushCell_of_lt t.stage t.scnt _ hroom']
        exact hsame.set_stage _ hroom hroom'
      · have hfull : s.scnt.val = 64 := by omega
        have hfull' : t.scnt.val = 64 := by rwa [hsame.scnt_eq]
        rw [pushCell_full s.stage s.scnt _ hfull, pushCell_full t.stage t.scnt _ hfull']
        exact hsame.map (fun u => { u with sovf := true }) rfl rfl rfl le_rfl le_rfl fun _ _ _ => rfl

theorem SameVisible.writeCmd (w : Word) : SameOutcome (writeCmd w s) (writeCmd w t) := by
  unfold Machine.writeCmd
  cases decode w with
  | command i => exact hsame.exec i
  | illegal _ => exact hsame.command (hsame.set_err .illegal)

theorem SameVisible.portWrite (hinv : Inv s) (a : PortAddr) (v : Word) :
    SameOutcome (portWrite a v s) (portWrite a v t) := by
  unfold Machine.portWrite
  by_cases hfault : s.fault = true
  · rw [if_pos hfault, if_pos (hsame.fault_eq.trans hfault)]
    exact hsame
  · rw [if_neg hfault, if_neg (by rwa [hsame.fault_eq])]
    cases portReg a with
    | cmd => exact hsame.writeCmd v
    | fg => exact hsame.map (fun u => { u with fg := _ }) rfl rfl rfl le_rfl le_rfl fun _ _ _ => rfl
    | bg => exact hsame.map (fun u => { u with bg := _ }) rfl rfl rfl le_rfl le_rfl fun _ _ _ => rfl
    | delay => exact hsame.map (fun u => { u with delay := v }) rfl rfl rfl le_rfl le_rfl fun _ _ _ => rfl
    | str => exact hsame.writeStr hinv v
    | data => exact hsame.writeData v
    | status | result | strlen | fbwin | unmapped => exact hsame

theorem SameVisible.portRead (a : PortAddr) : SameVisible (portRead a s) (portRead a t) := by
  unfold Machine.portRead
  rw [hsame.portValue_eq]
  exact hsame.map (fun u => { u with replies := u.replies ++ [portValue a s] }) rfl rfl rfl le_rfl le_rfl
    fun _ _ _ => rfl

/-- Reset gives every hidden field one value (R161; notes/assumptions/7.md). -/
theorem SameVisible.hardReset : SameVisible (hardReset s) (hardReset t) := by
  rw [hsame.visible_eq Machine.hardReset fun _ _ _ => rfl]
  exact .refl _

theorem SameVisible.attachSink (k : SinkKind) : SameOutcome (attachSink k s) (attachSink k t) := by
  unfold Machine.attachSink
  rw [hsame.visible_eq State.sink fun _ _ _ => rfl]
  cases s.sink with
  | unattached =>
    exact hsame.map (fun u => { u with sink := .attached k, region := [], received := [] }) rfl rfl rfl le_rfl le_rfl
      fun _ _ _ => rfl
  | attached _ => rfl

theorem SameVisible.perform (hinv : Inv s) (e : Input) : SameOutcome (perform e s) (perform e t) := by
  cases e with
  | portWrite a v => exact hsame.portWrite hinv a v
  | portRead a => exact hsame.portRead a
  | tick => exact hsame.tick hinv
  | reset => exact hsame.hardReset
  | attach k => exact hsame.attachSink k

theorem SameVisible.step (hinv : Inv s) : SameOutcome (step s) (step t) := by
  have hinputs : t.inputs = s.inputs := hsame.visible_eq State.inputs fun _ _ _ => rfl
  cases hin : s.inputs with
  | nil =>
    rw [step_empty hin, step_empty (hinputs.trans hin)]
    exact hsame.tick hinv
  | cons e rest =>
    rw [step_input hin, step_input (hinputs.trans hin)]
    exact (hsame.set_inputs rest).perform
      (hinv.unread_fields (inputs := rest)) e

end

theorem SameOutcome.next {o : Host.Outcome State Fault Refusal} {s : State} (h : SameOutcome (.next s) o) :
    ∃ t, o = .next t ∧ SameVisible s t := by
  cases o with
  | next t => exact ⟨t, rfl, h⟩
  | fault r => exact h.elim
  | refused r => exact h.elim

theorem SameOutcome.refused {o : Host.Outcome State Fault Refusal} {r : Refusal}
    (h : SameOutcome (.refused r) o) : o = .refused r := by
  cases o with
  | next t => exact h.elim
  | fault r => exact h.elim
  | refused r => exact congrArg _ h

/-- Settles O55: the relation is kept by every step, and no read tells its two sides apart. -/
theorem unspecifiedContentsAreUnobservable : Obligations.UnspecifiedContentsAreUnobservable := by
  intro s t hinv hsame
  have hstep := hsame.step hinv
  exact ⟨hsame.portValue_eq, fun s' hnext => (hnext ▸ hstep).next, fun r href => (href ▸ hstep).refused⟩

end Sys2Proof.Machine
end

section
/-! PROOF. One engine tick. -/

namespace Sys2Proof.Machine

/-! ## What advancing and waiting do to the sequencer -/

/-- `q'` is `q` but for the place in the string, the phase and the wait count: the blob and the latched values are the
same. -/
structure SameLatched (q q' : Seq) : Prop where
  g : q'.g = q.g
  fgL : q'.fgL = q.fgL
  bgL : q'.bgL = q.bgL
  dL : q'.dL = q.dL

theorem advanceScroll_latched (s : State) : SameLatched s.seq (advanceScroll s).seq := by
  rcases advanceScroll_cases s with ⟨_, heq⟩ | ⟨_, _, heq⟩ | ⟨_, _, heq⟩ <;> rw [heq] <;> exact ⟨rfl, rfl, rfl, rfl⟩

theorem advanceScroll_advanced (s : State) : Advanced s (advanceScroll s) := by
  rcases advanceScroll_cases s with ⟨hc, heq⟩ | ⟨hc, hnext, heq⟩ | ⟨hc, hlast, heq⟩ <;> rw [heq]
  · exact ⟨fun _ => ⟨rfl, rfl, rfl, rfl⟩, fun h => absurd hc (by omega), fun h => absurd hc (by omega)⟩
  · exact ⟨fun h => absurd h hc, fun _ _ => ⟨rfl, rfl, rfl, rfl⟩, fun _ h => absurd hnext (by omega)⟩
  · exact ⟨fun h => absurd h hc, fun _ h => absurd h hlast, fun _ _ => ⟨rfl, rfl, rfl⟩⟩

/-- `advance()` reads the column, the character and STRLEN only (R134). -/
theorem Advanced.of_eq {s s' t : State} (hadv : Advanced s t) (hc : s.seq.c = s'.seq.c) (hi : s.seq.i = s'.seq.i)
    (hlen : s.strlen = s'.strlen) : Advanced s' t := by
  obtain ⟨hcolumn, hcharacter, hcomplete⟩ := hadv
  rw [hc, hi, hlen] at hcolumn hcharacter
  rw [hc, hi, hlen] at hcomplete
  exact ⟨hcolumn, hcharacter, hcomplete⟩

theorem afterColumn_advance {s : State} (hdelay : s.seq.dL = 0) : afterColumn s = advanceScroll s := if_pos hdelay

theorem afterColumn_wait {s : State} (hdelay : s.seq.dL ≠ 0) :
    afterColumn s = { s with seq := { s.seq with w := s.seq.dL, phase := .wait } } := if_neg hdelay

theorem afterColumn_latched (s : State) : SameLatched s.seq (afterColumn s).seq := by
  by_cases hdelay : s.seq.dL = 0
  · rw [afterColumn_advance hdelay]
    exact advanceScroll_latched s
  · rw [afterColumn_wait hdelay]
    exact ⟨rfl, rfl, rfl, rfl⟩

theorem waitTick_last {s : State} (hlast : s.seq.w = 1) :
    waitTick s = advanceScroll { s with seq := { s.seq with w := s.seq.w - 1 } } :=
  if_pos (by rw [hlast]; rfl)

theorem waitTick_count {s : State} (hleft : s.seq.w ≠ 1) :
    waitTick s = { s with seq := { s.seq with w := s.seq.w - 1 } } :=
  if_neg (fun hzero => hleft (by bv_omega))

theorem waitTick_latched (s : State) : SameLatched s.seq (waitTick s).seq := by
  by_cases hlast : s.seq.w = 1
  · rw [waitTick_last hlast]
    obtain ⟨hg, hfg, hbg, hdL⟩ := advanceScroll_latched { s with seq := { s.seq with w := s.seq.w - 1 } }
    exact ⟨hg, hfg, hbg, hdL⟩
  · rw [waitTick_count hlast]
    exact ⟨rfl, rfl, rfl, rfl⟩

/-! ## What a tick does, phase by phase -/

section
variable {s : State} (hstep : s.seq.phase = .step)
include hstep

/-- The glyph's column `c` is shifted in (R133). -/
theorem tick_step_fb :
    (tick s).fb = shiftIn s.orient (fun y => blobCell (loadGlyph s).seq.g s.seq.c y) s.fb := by
  rw [tick_step hstep, afterColumn_onlySeq]
  simp [columnStep, loadGlyph_seq]

theorem tick_step_emittedOnce : EmittedOnce s (tick s) := by
  have hcolumn := columnStep_emittedOnce (loadGlyph s)
  rw [tick_step hstep, afterColumn_onlySeq]
  refine EmittedOnce.then_seq ?_
  generalize columnStep (loadGlyph s) = t at hcolumn ⊢
  rw [loadGlyph_onlySeq] at hcolumn
  exact hcolumn.of_seq

/-- The blob of the character is loaded with its column 0 (R133). -/
theorem tick_step_latched : SameLatched (loadGlyph s).seq (tick s).seq := by
  rw [tick_step hstep, ← columnStep_seq]
  exact afterColumn_latched _

theorem tick_step_advanced (hdelay : s.seq.dL = 0) : Advanced s (tick s) := by
  rw [tick_step hstep, afterColumn_advance (by simpa [loadGlyph_seq] using hdelay)]
  exact (advanceScroll_advanced _).of_eq (by simp [loadGlyph_seq]) (by simp [loadGlyph_seq]) (by simp)

theorem tick_step_wait (hdelay : s.seq.dL ≠ 0) :
    (tick s).seq = { (loadGlyph s).seq with w := s.seq.dL, phase := .wait } ∧ (tick s).strlen = s.strlen := by
  rw [tick_step hstep, afterColumn_wait (by simpa [loadGlyph_seq] using hdelay)]
  simp [loadGlyph_seq]

end

/-- Besides the display and the sequencer a tick writes only STRLEN (R133, R135, R152). -/
theorem tick_onlyDisplay (s : State) :
    OnlyDisplay { s with seq := (tick s).seq, strlen := (tick s).strlen } (tick s) := by
  cases hphase : s.seq.phase with
  | idle =>
    rw [tick_idle hphase]
    rfl
  | wait =>
    rw [tick_wait hphase, waitTick_onlySeq]
    rfl
  | step =>
    rw [tick_step hphase, afterColumn_onlySeq]
    have hcolumn := columnStep_onlyDisplay (loadGlyph s)
    rw [loadGlyph_onlySeq] at hcolumn ⊢
    unfold OnlyDisplay at hcolumn ⊢
    rw [hcolumn]

/-- A tick never changes what SCROLL latched (R132). -/
theorem tick_latched (s : State) :
    (tick s).seq.fgL = s.seq.fgL ∧ (tick s).seq.bgL = s.seq.bgL ∧ (tick s).seq.dL = s.seq.dL := by
  cases hphase : s.seq.phase with
  | idle =>
    rw [tick_idle hphase]
    exact ⟨rfl, rfl, rfl⟩
  | wait =>
    rw [tick_wait hphase]
    obtain ⟨_, hfg, hbg, hdL⟩ := waitTick_latched s
    exact ⟨hfg, hbg, hdL⟩
  | step =>
    obtain ⟨_, hfg, hbg, hdL⟩ := tick_step_latched hphase
    simp only [loadGlyph_seq] at hfg hbg hdL
    exact ⟨hfg, hbg, hdL⟩

/-- The blob that a column step reads, the column written as a number. -/
theorem loadGlyph_g (s : State) : (loadGlyph s).seq.g =
    if s.seq.c.val = 0 then raster (strAt s.strbuf s.seq.i) s.seq.fgL s.seq.bgL else s.seq.g := by
  simp only [loadGlyph_seq, Fin.ext_iff, Fin.val_zero]

/-- A tick in phase WAIT writes the sequencer and STRLEN only, counts one down and advances at the end (R133). -/
theorem tick_wait_effect {s : State} (hwait : s.seq.phase = .wait) :
    tick s = { s with seq := (tick s).seq, strlen := (tick s).strlen } ∧ (tick s).seq.g = s.seq.g ∧
    (s.seq.w = 1 → Advanced s (tick s)) ∧
    (s.seq.w ≠ 1 → (tick s).seq.phase = .wait ∧ (tick s).seq.w = s.seq.w - 1 ∧ (tick s).seq.c = s.seq.c ∧
      (tick s).seq.i = s.seq.i ∧ (tick s).strlen = s.strlen) := by
  rw [tick_wait hwait]
  refine ⟨waitTick_onlySeq s, (waitTick_latched s).g, fun hlast => ?_, fun hleft => ?_⟩
  · rw [waitTick_last hlast]
    exact (advanceScroll_advanced _).of_eq rfl rfl rfl
  · rw [waitTick_count hleft]
    exact ⟨hwait, rfl, rfl, rfl, rfl⟩

/-- Settles O43: the clauses are what a tick does in each phase, and what it leaves alone in all of them. -/
theorem tickRunsOneColumnStep : Obligations.TickRunsOneColumnStep := by
  intro s
  refine ⟨fun hstep => ⟨tick_step_emittedOnce hstep, fun y => ?_⟩, fun hstep => ⟨?_, tick_step_advanced hstep, ?_⟩,
    tick_wait_effect, tick_idle, tick_latched s, tick_onlyDisplay s, step_empty rfl, fun _ => rfl⟩
  · rw [tick_step_fb hstep, ← loadGlyph_g]
    exact ⟨shiftIn_last s.orient _ s.fb y, fun x hx => shiftIn_left s.orient _ s.fb x y hx⟩
  · rw [← loadGlyph_g]
    exact (tick_step_latched hstep).g
  · intro hdelay
    obtain ⟨hseq, hlen⟩ := tick_step_wait hstep hdelay
    rw [hseq, loadGlyph_seq]
    exact ⟨rfl, rfl, rfl, rfl, hlen⟩

end Sys2Proof.Machine
end

section
/-! PROOF. Which steps change the framebuffer, the output stream, RESULT and ORIENT. -/

namespace Sys2Proof.Machine

/-! ## The output stream -/

/-- A tick emits one frame in phase STEP, and otherwise leaves the stream and the framebuffer alone (R56, R133). -/
theorem tick_frames_cases (s : State) :
    (s.seq.phase = .step ∧ (tick s).frames = s.frames ++ [(tick s).fb]) ∨
    ((tick s).fb = s.fb ∧ (tick s).frames = s.frames) := by
  cases hphase : s.seq.phase with
  | idle =>
    rw [tick_idle hphase]
    exact .inr ⟨rfl, rfl⟩
  | wait =>
    rw [(tick_wait_effect hphase).1]
    exact .inr ⟨rfl, rfl⟩
  | step => exact .inl ⟨rfl, (tick_step_emittedOnce hphase).frames⟩

theorem tick_frames (s : State) : (tick s).frames = s.frames ∨ (tick s).frames = s.frames ++ [(tick s).fb] :=
  (tick_frames_cases s).symm.imp And.right And.right

theorem OnlyDisplay.result {s t : State} (h : OnlyDisplay s t) : t.result = s.result := by
  unfold OnlyDisplay at h
  rw [h]

theorem OnlyDisplay.orient {s t : State} (h : OnlyDisplay s t) : t.orient = s.orient := by
  unfold OnlyDisplay at h
  rw [h]

theorem tick_result (s : State) : (tick s).result = s.result := (tick_onlyDisplay s).result

theorem tick_orient (s : State) : (tick s).orient = s.orient := (tick_onlyDisplay s).orient

theorem CommandEffect.frames {i : Instr} {s t : State} (heffect : CommandEffect i s t) :
    t.frames = s.frames ∨ t.frames = s.frames ++ [t.fb] := by
  cases heffect with
  | draw | drawStaged | setorient | flush => exact .inr rfl
  | scroll => exact .inl (startScroll_frames s)
  | coord | length | angle | value | unpack | nop | clrerr | dataclr | strclr => exact .inl rfl

theorem StepEffect.frames {s t : State} (heffect : StepEffect s t) :
    t.frames = s.frames ∨ t.frames = s.frames ++ [t.fb] := by
  cases heffect with
  | idle => exact tick_frames s
  | tick rest => exact tick_frames { s with inputs := rest }
  | command _ _ _ hcmd => exact hcmd.frames
  | str cp rest => exact .inl (pushCodepoint_frames cp _)
  | read | reset | attach | error | data | overflow | control => exact .inl rfl

/-- Settles O51: no effect of a step takes a frame away, and the one it may add is the framebuffer. -/
theorem frameStreamOnlyGrows : Obligations.FrameStreamOnlyGrows := fun _ _ hstep => (step_effect hstep).frames

/-! ## The framebuffer -/

/-- A command that changes the framebuffer is a mutating one that succeeds (R17, R99). -/
theorem CommandEffect.fb_eq {i : Instr} {s t : State} (heffect : CommandEffect i s t) :
    t.fb = s.fb ∨ (emitsFrame i = true ∧ i ≠ .flush ∧ operandError i s = none) := by
  cases heffect with
  | draw _ hemit hflush hok => exact .inr ⟨hemit, hflush, hok⟩
  | drawStaged _ hemit hflush hok => exact .inr ⟨hemit, hflush, hok⟩
  | setorient => exact .inr ⟨rfl, nofun, rfl⟩
  | scroll => exact .inl (startScroll_fb s)
  | coord | length | angle | value | unpack | flush | nop | clrerr | dataclr | strclr => exact .inl rfl

/-- The operand check does not read the inputs. -/
theorem operandError_inputs (i : Instr) (s : State) (rest : List Input) :
    operandError i { s with inputs := rest } = operandError i s := by
  cases i <;> rfl

/-- Settles O52: of a step's effects only a mutating command, a tick in phase STEP and reset write a cell. -/
theorem onlyCommandsAndColumnStepsWriteCells : Obligations.OnlyCommandsAndColumnStepsWriteCells := by
  intro s t hstep hfb
  have hcolumn : ∀ u : State, (tick u).fb ≠ u.fb → u.seq.phase = .step := fun u hne =>
    (tick_frames_cases u).elim And.left fun h => absurd h.1 hne
  cases step_effect hstep with
  | idle hin => exact .inr (.inl ⟨hcolumn s hfb, .inl hin⟩)
  | tick rest hin => exact .inr (.inl ⟨hcolumn { s with inputs := rest } hfb, .inr ⟨rest, hin⟩⟩)
  | reset rest hin => exact .inr (.inr ⟨rest, hin⟩)
  | command hin hdec hready hcmd =>
    obtain ⟨hemit, hflush, hok⟩ := hcmd.fb_eq.resolve_left hfb
    exact .inl ⟨_, _, _, hin, hdec, hready, hemit, hflush, by rwa [operandError_inputs] at hok⟩
  | str cp => exact absurd (pushCodepoint_fb cp _) hfb
  | read | attach | error | data | overflow | control => exact absurd rfl hfb

/-! ## RESULT -/

/-- A command that changes RESULT is a value command that succeeds (R22). -/
theorem CommandEffect.result_eq {i : Instr} {s t : State} (heffect : CommandEffect i s t) :
    t.result = s.result ∨ (writesResult i = true ∧ operandError i s = none) := by
  cases heffect with
  | value _ hval hok => exact .inr ⟨hval, hok⟩
  | unpack => exact .inr ⟨rfl, rfl⟩
  | scroll => exact .inl (startScroll_result s)
  | coord | length | angle | draw | drawStaged | setorient | flush | nop | clrerr | dataclr | strclr => exact .inl rfl

/-- No command both emits a frame and writes RESULT. -/
theorem writesResult_eq_false {i : Instr} (hemit : emitsFrame i = true) : writesResult i = false := by
  cases i with
  | nop | getpx | getpxa | dataclr | scroll | strclr | clrerr | pack | unpack | insr | insg | insb => cases hemit
  | _ => rfl

/-- What a value command other than UNPACK writes is a zero-extended 16-bit value (R22). -/
theorem CommandEffect.result_lt {i : Instr} {s t : State} (heffect : CommandEffect i s t)
    (hval : writesResult i = true) (hok : operandError i s = none) (hunpack : ∀ c, i ≠ .unpack c) :
    t.result.toNat < 65536 := by
  cases heffect with
  | value c =>
    rw [putResult_result, BitVec.toNat_setWidth]
    have := c.isLt
    omega
  | unpack c => exact absurd rfl (hunpack c)
  | coord herr | length herr | angle herr => cases hok.symm.trans herr
  | draw _ hemit | drawStaged _ hemit => cases hval.symm.trans (writesResult_eq_false hemit)
  | setorient | flush | nop | clrerr | dataclr | strclr | scroll => cases hval

/-- Settles O53: of a step's effects only a value command and reset write RESULT. -/
theorem onlyValueCommandsWriteResult : Obligations.OnlyValueCommandsWriteResult := by
  refine ⟨fun s t hstep hres => ?_, fun i s t hready hexec => (exec_ready_effect hready hexec).result_lt⟩
  cases step_effect hstep with
  | idle => exact absurd (tick_result s) hres
  | tick rest => exact absurd (tick_result { s with inputs := rest }) hres
  | reset rest hin => exact .inr ⟨rest, hin⟩
  | command hin hdec hready hcmd =>
    obtain ⟨hval, hok⟩ := hcmd.result_eq.resolve_left hres
    exact .inl ⟨_, _, _, hin, hdec, hready, hval, by rwa [operandError_inputs] at hok⟩
  | str cp => exact absurd (pushCodepoint_result cp _) hres
  | read | attach | error | data | overflow | control => exact absurd rfl hres

/-! ## ORIENT -/

/-- A command that changes ORIENT is SETORIENT, and ORIENT is its operand then (R18). -/
theorem CommandEffect.orient_eq {i : Instr} {s t : State} (heffect : CommandEffect i s t) :
    t.orient = s.orient ∨ ∃ o, i = .setorient o ∧ t.orient = o := by
  cases heffect with
  | setorient o => exact .inr ⟨o, rfl, rfl⟩
  | scroll => exact .inl (startScroll_orient s)
  | coord | length | angle | draw | drawStaged | value | unpack | flush | nop | clrerr | dataclr | strclr =>
    exact .inl rfl

/-- Settles O54: of a step's effects only SETORIENT and reset write ORIENT. -/
theorem onlySetorientWritesOrient : Obligations.OnlySetorientWritesOrient := by
  intro s t hstep horient
  cases step_effect hstep with
  | idle => exact absurd (tick_orient s) horient
  | tick rest => exact absurd (tick_orient { s with inputs := rest }) horient
  | reset rest hin => exact .inr ⟨rest, hin⟩
  | command hin hdec _ hcmd =>
    obtain ⟨o, rfl, ho⟩ := hcmd.orient_eq.resolve_left horient
    exact .inl ⟨_, _, o, hin, hdec, ho⟩
  | str cp => exact absurd (pushCodepoint_orient cp _) horient
  | read | attach | error | data | overflow | control => exact absurd rfl horient

end Sys2Proof.Machine
end

section
/-! PROOF. The registers of the port, and the word that a step takes from CMD. -/

namespace Sys2Proof.Machine

/-! ## Reads -/

section
variable {a : PortAddr} (s : State)

theorem portValue_status (hreg : portReg a = .status) : portValue a s = statusWord s := by simp only [portValue, hreg]

theorem portValue_result (hreg : portReg a = .result) : portValue a s = s.result := by simp only [portValue, hreg]

theorem portValue_fg (hreg : portReg a = .fg) : portValue a s = s.fg.zeroExtend 32 := by simp only [portValue, hreg]

theorem portValue_bg (hreg : portReg a = .bg) : portValue a s = s.bg.zeroExtend 32 := by simp only [portValue, hreg]

theorem portValue_delay (hreg : portReg a = .delay) : portValue a s = s.delay := by simp only [portValue, hreg]

theorem portValue_strlen (hreg : portReg a = .strlen) : portValue a s = BitVec.ofNat 32 s.strlen := by
  simp only [portValue, hreg]

end

/-- No register shows the inputs or the words read so far. -/
theorem portValue_host_side (a : PortAddr) (s : State) (inputs : List Input) (replies : List Word) :
    portValue a { s with inputs, replies } = portValue a s := rfl

/-- STRLEN is at most STRCAP, so its 32 bits hold it (R24). -/
theorem Inv.strlen_lt {s : State} (hinv : Inv s) : s.strlen < 2 ^ 32 := hinv.string_fits.trans_lt hinv.strcap_fits

/-- Settles O18: the step appends the word to the replies, which no register shows. -/
theorem readsHaveNoSideEffect : Obligations.ReadsHaveNoSideEffect := by
  intro s a b rest hin
  refine ⟨portRead a { s with inputs := rest }, step_input hin, rfl, portValue_host_side b s rest _, fun ha => ?_,
    fun ha => ?_⟩
  · exact portValue_result s (portReg_result ha)
  · have hvalue := portValue_strlen s (portReg_strlen ha)
    refine ⟨hvalue, fun hinv => ?_⟩
    rw [hvalue, BitVec.toNat_ofNat, Nat.mod_eq_of_lt hinv.strlen_lt]

/-! ## FG, BG and DELAY -/

/-- Bits [15:0] of a word, as a number. -/
theorem extractLsb'_colour (v : Word) : v.extractLsb' 0 16 = BitVec.ofNat 16 v.toNat := by
  apply BitVec.eq_of_toNat_eq
  simp

/-- A 16-bit register reads its reserved bits as 0 (R19, R20). -/
theorem toNat_zeroExtend_colour (n : Nat) : ((BitVec.ofNat 16 n).zeroExtend 32).toNat = n % 65536 := by
  rw [BitVec.toNat_setWidth, BitVec.toNat_ofNat]
  omega

/-- What holds of the state after a step holds of every answer of the step, which is that one. -/
theorem step_next_and {s u : State} {P : State → Prop} (hstep : step s = .next u) (hu : P u) :
    step s = .next u ∧ ∀ t, step s = .next t → P t := by
  refine ⟨hstep, fun t ht => ?_⟩
  cases hstep.symm.trans ht
  exact hu

/-- Settles O16: each write stores its bits, and the read shows them with the reserved ones 0. -/
theorem colourAndDelayRegisters : Obligations.ColourAndDelayRegisters := by
  intro s a v rest hfault hin
  refine ⟨fun ha => ?_, fun ha => ?_, fun ha => ?_⟩
  · have hreg := portReg_fg ha
    have hstep := step_write_fg hin hfault hreg
    rw [extractLsb'_colour] at hstep
    exact step_next_and hstep (by rw [portValue_fg _ hreg, toNat_zeroExtend_colour])
  · have hreg := portReg_bg ha
    have hstep := step_write_bg hin hfault hreg
    rw [extractLsb'_colour] at hstep
    exact step_next_and hstep (by rw [portValue_bg _ hreg, toNat_zeroExtend_colour])
  · have hreg := portReg_delay ha
    exact step_next_and (step_write_delay hin hfault hreg) (portValue_delay _ hreg)

/-! ## STATUS -/

theorem busy_eq_decide (s : State) : s.busy = decide (s.seq.phase ≠ .idle) := by
  unfold State.busy
  cases s.seq.phase <;> rfl

/-- The fields of STATUS, each at its place (R25). -/
theorem statusWord_fields (s : State) :
    (statusWord s).extractLsb' 0 1 = BitVec.ofBool s.busy ∧
    (statusWord s).extractLsb' 1 1 = BitVec.ofBool s.fault ∧
    (statusWord s).extractLsb' 2 2 = 0 ∧
    (statusWord s).extractLsb' 4 4 = s.err.code ∧
    (statusWord s).extractLsb' 8 2 = s.orient.code ∧
    (statusWord s).extractLsb' 10 6 = 0 ∧
    (statusWord s).extractLsb' 16 7 = BitVec.ofNat 7 s.scnt.val ∧
    (statusWord s).extractLsb' 23 1 = BitVec.ofBool s.sovf ∧
    (statusWord s).extractLsb' 24 8 = 0 := by
  refine ⟨?_, ?_, ?_, ?_, ?_, ?_, ?_, ?_, ?_⟩ <;>
    simp (disch := decide) only [statusWord, BitVec.extractLsb'_append_eq_of_add_le,
      BitVec.extractLsb'_append_eq_of_le, BitVec.extractLsb'_eq_self, Nat.reduceSub] <;> rfl

/-- SCNT is at most 64, so its 7 bits hold it (R23). -/
theorem toNat_scnt (s : State) : (BitVec.ofNat 7 s.scnt.val).toNat = s.scnt.val := by
  rw [BitVec.toNat_ofNat, Nat.mod_eq_of_lt (by omega)]

/-- Settles O19: the fields are those of `statusWord`, and a write to STATUS is one that is ignored. -/
theorem statusFields : Obligations.StatusFields := by
  intro s a ha
  have hreg := portReg_status ha
  obtain ⟨hbusy, hfault, hres2, herr, horient, hres10, hscnt, hsovf, hres24⟩ := statusWord_fields s
  refine ⟨?_, ?_, fun v rest hin => step_write_ignored hin (by rw [hreg]; rfl)⟩
  · rw [portValue_status s hreg]
    refine ⟨hbusy.trans (by rw [busy_eq_decide]), hfault, hres2, ?_, ?_, hres10, ?_, hsovf, hres24⟩
    · rw [herr]
      cases s.err <;> rfl
    · rw [horient]
      cases s.orient <;> rfl
    · rw [hscnt, toNat_scnt]
  · rw [portValue_status _ hreg]
    decide

/-! ## CMD -/

/-- A write to CMD in the fault state is ignored, and so is every command (R70, R150). -/
theorem step_write_command {s : State} {w : Word} {i : Instr} {rest : List Input}
    (hin : s.inputs = .portWrite cmdAddr w :: rest) (hdec : decode w = .command i) :
    step s = exec i { s with inputs := rest } := by
  by_cases hfault : s.fault = true
  · obtain ⟨body, hexec, _⟩ := exec_eq_command i
    rw [step_write_fault hin hfault, hexec]
    exact (command_fault (s := { s with inputs := rest }) body hfault).symm
  · rw [step_write_cmd hin (Bool.eq_false_of_not_eq_true hfault) portReg_cmdAddr]
    simp only [writeCmd, hdec]

/-- Settles O6: a placed word is the next write to CMD. -/
theorem stepRunsTheDecodedCommand : Obligations.StepRunsTheDecodedCommand := by
  refine ⟨fun s w i rest hin hdec => step_write_command hin hdec, fun s n i hn hdec => ?_⟩
  have hin := withFetchWord_inputs s 32 n
  rw [Nat.mod_eq_of_lt hn] at hin
  exact step_write_command hin hdec

end Sys2Proof.Machine
end

section
/-! PROOF. Single commands: reading a cell, starting a scroll, packing and unpacking a colour. -/

namespace Sys2Proof.Machine

/-- Settles O25: the coordinate check, and one cell to RESULT. -/
theorem getpxReadsOneCell : Obligations.GetpxReadsOneCell := by
  intro s hready
  refine ⟨fun x y => ⟨?_, ?_⟩, fun x y hout => ⟨?_, ?_⟩⟩
  · exact (command_ready _ hready).trans (congrArg _ (withCoord_in s _ x.isLt y.isLt))
  · exact (command_ready _ hready).trans (congrArg _ (withCoord_in s _ x.isLt y.isLt))
  · exact (command_ready _ hready).trans (congrArg _ (withCoord_out s _ hout))
  · exact (command_ready _ hready).trans (congrArg _ (withCoord_out s _ hout))

/-- The per-column delay is `floor(DELAY / 8)` (R132). -/
theorem toNat_columnDelay (delay : Word) : (columnDelay delay).toNat = delay.toNat / 8 := by
  rw [columnDelay, BitVec.extractLsb'_toNat, Nat.shiftRight_eq_div_pow]
  omega

/-- Settles O42: the body of SCROLL is `startScroll`, by whether the string is empty. -/
theorem scrollStartsTheSequencer : Obligations.ScrollStartsTheSequencer := by
  intro s hready
  have hexec : exec .scroll s = .next (startScroll s) := command_ready startScroll hready
  refine ⟨fun hempty => by rw [hexec, startScroll_empty hempty], fun hstr => ⟨startScroll s, hexec, ?_⟩⟩
  rw [startScroll_of_ne hstr]
  exact ⟨rfl, rfl, rfl, rfl, rfl, rfl, rfl, toNat_columnDelay s.delay⟩

/-! ## Colours as numbers -/

theorem toNat_red (c : Colour) : (red c).toNat = c.toNat / 2048 := by
  rw [red, BitVec.extractLsb'_toNat, Nat.shiftRight_eq_div_pow]
  omega

theorem toNat_green (c : Colour) : (green c).toNat = c.toNat / 32 % 64 := by
  rw [green, BitVec.extractLsb'_toNat, Nat.shiftRight_eq_div_pow]

theorem toNat_blue (c : Colour) : (blue c).toNat = c.toNat % 32 := by
  rw [blue, BitVec.extractLsb'_toNat, Nat.shiftRight_zero]

/-- The concatenation of two words, as a number. -/
theorem toNat_append_eq_add {m n : Nat} (x : BitVec m) (y : BitVec n) :
    (x ++ y).toNat = x.toNat * 2 ^ n + y.toNat := by
  rw [BitVec.toNat_append, ← Nat.shiftLeft_add_eq_or_of_lt y.isLt, Nat.shiftLeft_eq]

/-- Each component masked, in its place (R76). -/
theorem toNat_packColour (r g b : Byte) :
    (packColour r g b).toNat = (r.toNat % 32) * 2048 + (g.toNat % 64) * 32 + b.toNat % 32 := by
  simp only [packColour, toNat_append_eq_add, BitVec.extractLsb'_toNat, Nat.shiftRight_zero]
  omega

/-- Settles O47. -/
theorem packMasksComponents : Obligations.PackMasksComponents := by
  intro s r g b hready
  refine ⟨putResult (packColour r g b) s, command_ready _ hready, rfl, ?_⟩
  rw [putResult_result, BitVec.toNat_setWidth, toNat_packColour]
  omega

/-- UNPACK's word: red, green and blue in their byte lanes (R78). -/
theorem toNat_unpackColour (c : Colour) :
    (unpackColour c).toNat = c.toNat / 2048 + (c.toNat / 32 % 64) * 256 + (c.toNat % 32) * 65536 := by
  have hc := c.isLt
  have hlow : c.toNat / 2048 < 2 ^ 8 := by omega
  have hmid : 2 ^ 8 * (c.toNat / 32 % 64) + c.toNat / 2048 < 2 ^ 16 := by omega
  calc (unpackColour c).toNat
      = c.toNat / 2048 ||| 2 ^ 8 * (c.toNat / 32 % 64) ||| 2 ^ 16 * (c.toNat % 32) := by
        simp only [unpackColour, BitVec.toNat_or, BitVec.toNat_shiftLeft, BitVec.toNat_setWidth, toNat_red,
          toNat_green, toNat_blue, Nat.shiftLeft_eq]
        congr 1 <;> [congr 1; skip] <;> omega
    _ = 2 ^ 16 * (c.toNat % 32) + (2 ^ 8 * (c.toNat / 32 % 64) + c.toNat / 2048) := by
        rw [Nat.two_pow_add_eq_or_of_lt hmid, Nat.two_pow_add_eq_or_of_lt hlow, Nat.or_comm,
          Nat.or_comm (c.toNat / 2048)]
    _ = _ := by omega

/-- The word that a host makes of a RESULT is PACK of its three low bytes (R75, R78). -/
theorem decode_packWord (x : Word) : decode (0xA0000000 ||| (x &&& 0x00FFFFFF)) =
    .command (.pack (byte0Field x) (byte1Field x) (byte2Field x)) := by
  have hop : opField (0xA0000000 ||| (x &&& 0x00FFFFFF)) = 0x14 := by
    simp [opField, BitVec.extractLsb'_or, BitVec.extractLsb'_and]
  have hreserved : (0xA0000000 ||| (x &&& 0x00FFFFFF)) &&& reservedMask .b = 0 := by
    rw [BitVec.and_or_distrib_right, BitVec.and_assoc]
    simp [reservedMask]
  have hbyte : ∀ v : Byte, v &&& 0xFF#8 = v := fun v => BitVec.and_allOnes
  rw [decode_of_format hop rfl hreserved]
  simp [commandOf, byte0Field, byte1Field, byte2Field, BitVec.extractLsb'_or, BitVec.extractLsb'_and, hbyte]

/-- The bytes of a number put together from three byte lanes. -/
theorem bytes_of_lanes {r g b : Nat} (hr : r < 256) (hg : g < 256) (hb : b < 256) :
    (r + g * 256 + b * 65536) % 256 = r ∧ (r + g * 256 + b * 65536) / 256 % 256 = g ∧
    (r + g * 256 + b * 65536) / 65536 % 256 = b := by
  omega

/-- A colour's components, unpacked into bytes and packed again (R76, R78). -/
theorem packColour_unpackColour (c : Colour) :
    packColour (byte0Field (unpackColour c)) (byte1Field (unpackColour c)) (byte2Field (unpackColour c)) = c := by
  have hc := c.isLt
  obtain ⟨hred, hgreen, hblue⟩ :=
    bytes_of_lanes (r := c.toNat / 2048) (g := c.toNat / 32 % 64) (b := c.toNat % 32) (by omega) (by omega) (by omega)
  apply BitVec.eq_of_toNat_eq
  rw [toNat_packColour]
  simp only [byte0Field, byte1Field, byte2Field, BitVec.extractLsb'_toNat, toNat_unpackColour,
    Nat.shiftRight_eq_div_pow, Nat.reducePow, Nat.div_one, hred, hgreen, hblue]
  omega

/-- Settles O48: the word made of RESULT packs the bytes that UNPACK laid out. -/
theorem unpackThenPack : Obligations.UnpackThenPack := by
  intro s c hready
  have hready' : Ready { s with result := unpackColour c } := hready
  refine ⟨{ s with result := unpackColour c }, command_ready _ hready, rfl, toNat_unpackColour c, _, _,
    decode_packWord _, command_ready _ hready', ?_⟩
  rw [putResult_result, packColour_unpackColour]

end Sys2Proof.Machine
end

section
/-! PROOF. Which commands, ticks and steps emit a frame. -/

namespace Sys2Proof.Machine

/-- A command emits one frame if it is one that emits and its operand check passes, and otherwise none (R55). -/
theorem CommandEffect.frames_cases {i : Instr} {s t : State} (heffect : CommandEffect i s t) :
    ((emitsFrame i = true ∧ operandError i s = none) ∧ t.frames = s.frames ++ [t.fb]) ∨
    (¬ (emitsFrame i = true ∧ operandError i s = none) ∧ t.frames = s.frames) := by
  cases heffect with
  | coord herr | length herr | angle herr => exact .inr ⟨fun ⟨_, hok⟩ => (nomatch hok.symm.trans herr), rfl⟩
  | draw _ hemit _ hok | drawStaged _ hemit _ hok => exact .inl ⟨⟨hemit, hok⟩, rfl⟩
  | setorient | flush => exact .inl ⟨⟨rfl, rfl⟩, rfl⟩
  | value _ hval => exact .inr ⟨fun ⟨hemit, _⟩ => (nomatch hval.symm.trans (writesResult_eq_false hemit)), rfl⟩
  | scroll => exact .inr ⟨nofun, startScroll_frames s⟩
  | unpack | nop | clrerr | dataclr | strclr => exact .inr ⟨nofun, rfl⟩

theorem CommandEffect.frames_eq {i : Instr} {s t : State} (heffect : CommandEffect i s t) :
    t.frames = s.frames ++ (if emitsFrame i = true ∧ operandError i s = none then [t.fb] else []) := by
  rcases heffect.frames_cases with ⟨hemits, hframes⟩ | ⟨hsilent, hframes⟩
  · rw [if_pos hemits, hframes]
  · rw [if_neg hsilent, hframes, List.append_nil]

/-- A tick emits one frame in phase STEP and none in another phase (R56, R133). -/
theorem tick_frames_eq (s : State) :
    (tick s).frames = s.frames ++ (if s.seq.phase = .step then [(tick s).fb] else []) := by
  cases hphase : s.seq.phase with
  | idle => simp [tick_idle hphase]
  | step => exact (tick_step_emittedOnce hphase).frames
  | wait => rw [(tick_wait_effect hphase).1]; simp

/-- Every command has a next state, in every state (R50). -/
theorem exec_next (i : Instr) (s : State) : ∃ t, exec i s = .next t := by
  obtain ⟨body, hexec, _⟩ := exec_eq_command i
  exact ⟨guarded s body, hexec s⟩

/-- Settles O50: the frames of a command and of a tick, and of a step's effects only these two change the stream. -/
theorem exactlyTheseEmitFrames : Obligations.ExactlyTheseEmitFrames := by
  refine ⟨fun i s hready => ?_, tick_frames_eq, fun s t hstep hne => ?_⟩
  · obtain ⟨t, hexec⟩ := exec_next i s
    exact ⟨t, hexec, (exec_ready_effect hready hexec).frames_eq⟩
  · have hcolumn : ∀ u : State, (tick u).frames ≠ u.frames → u.seq.phase = .step := fun u hne =>
      (tick_frames_cases u).elim And.left fun h => absurd h.2 hne
    cases step_effect hstep with
    | idle hin => exact .inr ⟨hcolumn s hne, .inl hin⟩
    | tick rest hin => exact .inr ⟨hcolumn { s with inputs := rest } hne, .inr ⟨rest, hin⟩⟩
    | command hin hdec hready hcmd =>
      obtain ⟨hemit, hok⟩ := (hcmd.frames_cases.resolve_right fun h => hne h.2).1
      exact .inl ⟨_, _, _, hin, hdec, hready, hemit, by rwa [operandError_inputs] at hok⟩
    | str cp => exact absurd (pushCodepoint_frames cp _) hne
    | read | reset | attach | error | data | overflow | control => exact absurd rfl hne

end Sys2Proof.Machine
end

section
/-! PROOF. Pixel commands that draw: one cell, or every cell. -/

namespace Sys2Proof.Machine

section
variable {s : State} (hready : Ready s) (body : Fin 8 → Fin 8 → State → State)
include hready

/-- A pixel command in range runs its body at its coordinates (R85–R88). -/
theorem command_withCoord_in (x y : Fin 8) :
    command s (fun s => withCoord x.val y.val s body) = .next (body x y s) :=
  (command_ready _ hready).trans (congrArg _ (withCoord_in s body x.isLt y.isLt))

/-- A pixel command out of range raises COORD (R85–R88). -/
theorem command_withCoord_out {x y : Nat} (hout : ¬ (x < 8 ∧ y < 8)) :
    command s (fun s => withCoord x y s body) = .next { s with err := .coord } :=
  (command_ready _ hready).trans (congrArg _ (withCoord_out s body hout))

end

/-- The cells of a frame in which one was replaced. -/
theorem cell_setCell (b : Frame) (i j : Fin 64) (c : Colour) :
    cell (setCell b i c) j = if j = i then c else cell b j := by
  split
  · next heq => rw [heq, setCell_self]
  · next hne => exact setCell_other b c hne

/-- Settles O23: in range the body replaces the cell that the mux gives. -/
theorem setpxWritesOneCell : Obligations.SetpxWritesOneCell := by
  intro s c hready
  refine ⟨fun x y => ⟨_, command_withCoord_in hready _ x y, fun j => ?_, mutate_emittedOnce _ s,
    mutate_onlyDisplay _ s⟩, fun x y hout => command_withCoord_out hready _ hout⟩
  exact cell_setCell s.fb (idx s.orient x y) j c

/-- Settles O24: in range the body replaces the native cell, whatever the orientation. -/
theorem setpxaWritesOneCell : Obligations.SetpxaWritesOneCell := by
  intro s c hready
  refine ⟨fun x y => ⟨_, command_withCoord_in hready _ x y, fun j => ?_, mutate_emittedOnce _ s,
    mutate_onlyDisplay _ s⟩, fun x y hout => command_withCoord_out hready _ hout⟩
  have hindex : j = cellIdx x y ↔ j.val = 8 * y.val + x.val := Fin.ext_iff
  simp only [mutate_fb, cell_setCell, hindex]

/-- Settles O27: the frame that SETALL draws holds its colour in every cell. -/
theorem setallFillsEveryCell : Obligations.SetallFillsEveryCell := by
  intro s c hready
  refine ⟨_, command_ready _ hready, fun j => ?_, mutate_emittedOnce _ s, mutate_onlyDisplay _ s⟩
  rw [mutate_fb, cell, Vector.getElem_replicate]

end Sys2Proof.Machine
end

section
/-! PROOF. Offsets that are unmapped or go one way, and the framebuffer window. -/

namespace Sys2Proof.Machine

/-! ## Unmapped and one-way offsets -/

theorem portReg_unmapped {a : PortAddr} (habove : 0x020 < byteOffset a)
    (hwindow : ¬ (0x100 ≤ byteOffset a ∧ byteOffset a ≤ 0x17C)) : portReg a = .unmapped := by
  unfold portReg
  iterate 9 rw [if_neg (by omega)]
  exact dif_neg hwindow

/-- The registers that a host write can change stand at six offsets (R40). -/
theorem writable_portReg_eq_false {a : PortAddr}
    (ha : byteOffset a ∉ [0x000, 0x00C, 0x010, 0x014, 0x018, 0x01C]) : (portReg a).writable = false := by
  simp only [List.mem_cons, List.not_mem_nil, or_false, not_or] at ha
  obtain ⟨hcmd, hfg, hbg, hdelay, hstr, hdata⟩ := ha
  simp only [portReg, hcmd, hfg, hbg, hdelay, hstr, hdata, if_false]
  split_ifs <;> rfl

/-- An offset that is write-only or unmapped reads 0 (R41, R42). -/
theorem portValue_eq_zero {a : PortAddr} (s : State) (ha : byteOffset a ∈ [0x000, 0x018, 0x01C] ∨
    (0x020 < byteOffset a ∧ ¬ (0x100 ≤ byteOffset a ∧ byteOffset a ≤ 0x17C))) : portValue a s = 0 := by
  have hreg : portReg a = .cmd ∨ portReg a = .str ∨ portReg a = .data ∨ portReg a = .unmapped := by
    rcases ha with hmem | ⟨habove, hwindow⟩
    · simp only [List.mem_cons, List.not_mem_nil, or_false] at hmem
      exact hmem.imp portReg_cmd (Or.imp portReg_str fun h => .inl (portReg_data h))
    · exact .inr (.inr (.inr (portReg_unmapped habove hwindow)))
  rcases hreg with hreg | hreg | hreg | hreg <;> simp only [portValue, hreg]

/-- Settles O17: a read appends the 0 that such an offset shows, and a write is one that is ignored. -/
theorem unmappedAndOneWayOffsets : Obligations.UnmappedAndOneWayOffsets := by
  intro s a
  refine ⟨fun ha => ⟨portValue_eq_zero s ha, fun rest hin => ?_⟩, fun ha v rest hin => ?_⟩
  · rw [step_input hin, ← portValue_eq_zero s ha]
    rfl
  · exact step_write_ignored hin (writable_portReg_eq_false ha)

/-! ## The window -/

theorem portValue_fbwin {a : PortAddr} {j : Fin 32} (s : State) (hreg : portReg a = .fbwin j) :
    portValue a s = fbWord s.fb j := by simp only [portValue, hreg]

/-- A word of the window, as a number (R45). -/
theorem toNat_fbWord (b : Frame) (j : Fin 32) : (fbWord b j).toNat =
    (cell b ⟨2 * j.val, by omega⟩).toNat + 65536 * (cell b ⟨2 * j.val + 1, by omega⟩).toNat := by
  rw [fbWord, toNat_append_eq_add]
  omega

/-- The low byte of a cell comes first in the image (R46). -/
theorem imageByte_low (b : Frame) {i k : Nat} (hi : i < 64) (hk : k < 128) (h : k = 2 * i) :
    imageByte b ⟨k, hk⟩ = (cell b ⟨i, hi⟩).extractLsb' 0 8 := by
  subst h
  simp [imageByte]

/-- The high byte of a cell comes second in the image (R46). -/
theorem imageByte_high (b : Frame) {i k : Nat} (hi : i < 64) (hk : k < 128) (h : k = 2 * i + 1) :
    imageByte b ⟨k, hk⟩ = (cell b ⟨i, hi⟩).extractLsb' 8 8 := by
  subst h
  have hhalf : (2 * i + 1) / 2 = i := by omega
  have hodd : (2 * i + 1) % 2 ≠ 0 := by omega
  simp only [imageByte, hhalf, if_neg hodd]

/-- A byte of a window word's low half is one of cell 2j (R45). -/
theorem fbWord_low_byte (b : Frame) (j : Fin 32) {start : Nat} (h : start + 8 ≤ 16) :
    (fbWord b j).extractLsb' start 8 = (cell b ⟨2 * j.val, by omega⟩).extractLsb' start 8 :=
  BitVec.extractLsb'_append_eq_of_add_le h

/-- A byte of a window word's high half is one of cell 2j + 1 (R45). -/
theorem fbWord_high_byte (b : Frame) (j : Fin 32) (start : Nat) :
    (fbWord b j).extractLsb' (16 + start) 8 = (cell b ⟨2 * j.val + 1, by omega⟩).extractLsb' start 8 := by
  rw [fbWord, BitVec.extractLsb'_append_eq_of_le (Nat.le_add_right 16 start), Nat.add_sub_cancel_left]

/-- The four bytes of a window word are its part of the image (R45, R46). -/
theorem imageByte_fbWord (b : Frame) (j : Fin 32) (k : Fin 4) :
    imageByte b ⟨4 * j.val + k.val, by omega⟩ = (fbWord b j).extractLsb' (8 * k.val) 8 := by
  match k with
  | 0 => exact (imageByte_low b _ _ (by omega)).trans (fbWord_low_byte b j (by decide)).symm
  | 1 => exact (imageByte_high b _ _ (by omega)).trans (fbWord_low_byte b j (by decide)).symm
  | 2 => exact (imageByte_low b _ _ (by omega)).trans (fbWord_high_byte b j 0).symm
  | 3 => exact (imageByte_high b _ _ (by omega)).trans (fbWord_high_byte b j 8).symm

/-- The two bytes of a cell in the image, as numbers (R46). -/
theorem toNat_imageByte (b : Frame) (i : Fin 64) :
    (imageByte b ⟨2 * i.val, by omega⟩).toNat = (cell b i).toNat % 256 ∧
    (imageByte b ⟨2 * i.val + 1, by omega⟩).toNat = (cell b i).toNat / 256 := by
  have hc := (cell b i).isLt
  rw [imageByte_low b i.isLt _ rfl, imageByte_high b i.isLt _ rfl]
  simp only [BitVec.extractLsb'_toNat, Nat.shiftRight_eq_div_pow, Fin.eta]
  omega

/-- Settles O20: the window's word, its bytes in the image, and a write that is ignored. -/
theorem windowShowsTheImage : Obligations.WindowShowsTheImage := by
  intro s a j ha
  have hreg := portReg_fbwin ha
  rw [portValue_fbwin s hreg]
  exact ⟨toNat_fbWord s.fb j, imageByte_fbWord s.fb j, toNat_imageByte s.fb,
    fun v rest hin => step_write_ignored hin (by rw [hreg]; rfl)⟩

end Sys2Proof.Machine
end

section
/-! PROOF. Attaching a sink, and that nothing else stops the block. -/

namespace Sys2Proof.Machine

section
variable {s : State} {k : SinkKind} {rest : List Input} (hin : s.inputs = .attach k :: rest)
include hin

/-- The first attach zeroes the region (R57, R165). -/
theorem step_attach_unattached (hsink : s.sink = .unattached) :
    step s = .next { s with inputs := rest, sink := .attached k, region := [], received := [] } := by
  simp [step_input hin, perform, attachSink, hsink]

/-- A second attach is refused (R159). -/
theorem step_attach_attached (hsink : s.sink ≠ .unattached) : step s = .refused .sinkAlreadyAttached := by
  cases hs : s.sink with
  | unattached => exact absurd hs hsink
  | attached k' => simp [step_input hin, perform, attachSink, hs]

end

/-- Settles O57: an empty region reads 0 at every address. -/
theorem attachZeroesTheRegion : Obligations.AttachZeroesTheRegion := by
  intro s k rest hin
  exact ⟨fun hsink => ⟨_, step_attach_unattached hin hsink, rfl, fun _ => rfl, rfl⟩, step_attach_attached hin⟩

theorem tick_strcap (s : State) : (tick s).strcap = s.strcap := by
  have hdisplay := tick_onlyDisplay s
  unfold OnlyDisplay at hdisplay
  rw [hdisplay]

theorem CommandEffect.strcap {i : Instr} {s t : State} (heffect : CommandEffect i s t) : t.strcap = s.strcap := by
  cases heffect with
  | scroll => exact startScroll_strcap s
  | coord | length | angle | draw | drawStaged | setorient | value | unpack | flush | nop | clrerr | dataclr | strclr =>
    rfl

/-- No step changes STRCAP: it is a parameter of the block (R6). -/
theorem StepEffect.strcap {s t : State} (heffect : StepEffect s t) : t.strcap = s.strcap := by
  cases heffect with
  | idle => exact tick_strcap s
  | tick rest => exact tick_strcap { s with inputs := rest }
  | command _ _ _ hcmd => exact hcmd.strcap
  | str cp => exact pushCodepoint_strcap cp _
  | read | reset | attach | error | data | overflow | control => rfl

theorem writeCmd_next (w : Word) (s : State) : ∃ t, writeCmd w s = .next t := by
  rcases writeCmd_cases w s with ⟨i, _, hrun⟩ | ⟨_, _, hrun⟩
  · rw [hrun]
    exact exec_next i s
  · exact ⟨_, hrun⟩

/-- Every port write has a next state, malformed words and ignored writes included (R41, R43, R68, R151). -/
theorem portWrite_next (a : PortAddr) (v : Word) (s : State) : ∃ t, portWrite a v s = .next t := by
  unfold portWrite
  split
  · exact ⟨s, rfl⟩
  · cases portReg a with
    | cmd => exact writeCmd_next v s
    | status | result | fg | bg | delay | str | data | strlen | fbwin | unmapped => exact ⟨_, rfl⟩

/-- A step has a next state, but where it attaches a second sink. -/
theorem step_next_or_attach (s : State) :
    (∃ t, step s = .next t) ∨ ∃ k rest, s.inputs = .attach k :: rest ∧ s.sink ≠ .unattached := by
  cases hin : s.inputs with
  | nil => exact .inl ⟨_, step_empty hin⟩
  | cons e rest =>
    cases e with
    | portWrite a v =>
      rw [step_input hin]
      exact .inl (portWrite_next a v _)
    | portRead | tick | reset => exact .inl ⟨_, step_input hin⟩
    | attach k =>
      by_cases hsink : s.sink = .unattached
      · exact .inl ⟨_, step_attach_unattached hin hsink⟩
      · exact .inr ⟨k, rest, rfl, hsink⟩

/-- Settles O60: the step answers, or it is the attach that is refused. -/
theorem stepsNeverStop : Obligations.StepsNeverStop := by
  intro s
  rcases step_next_or_attach s with ⟨t, hstep⟩ | ⟨k, rest, hin, hsink⟩
  · exact .inl ⟨t, hstep, (step_effect hstep).strcap⟩
  · exact .inr ⟨k, rest, hin, hsink, step_attach_attached hin hsink⟩

end Sys2Proof.Machine
end

section
/-! PROOF. The encoder and the decoder are inverse to each other. -/

namespace Sys2Proof

/-! ## Decoding an encoded command -/

/-- The decoder finds the opcode of the format's word and reads the command there. -/
theorem decode_encN {op : BitVec 5} {i : Instr} (hformat : formatOf op.toNat = some .n)
    (hcommand : ∀ w, commandOf op.toNat w = .command i) : decode (encN op) = .command i := by
  obtain ⟨hop, hreserved⟩ := fields_encN op
  rw [decode_of_format hop hformat hreserved, hcommand]

/-- The same with operands: `mk` makes the command of the row from them. -/
theorem decode_encP {op : BitVec 5} {mk : Nat → Nat → Colour → Instr} (hformat : formatOf op.toNat = some .p)
    (hcommand : ∀ w, commandOf op.toNat w = .command (mk (xField w) (yField w) (colorField w)))
    {x y : Nat} (hfits : (fitsCoordField x && fitsCoordField y) = true) (c : Colour) :
    decode (encP op x y c) = .command (mk x y c) := by
  obtain ⟨hop, hx, hy, hc, hreserved⟩ := fields_encP op x y c
  simp only [fitsCoordField, Bool.and_eq_true, decide_eq_true_eq] at hfits
  rw [decode_of_format hop hformat hreserved, hcommand, hx, hy, hc, Nat.mod_eq_of_lt (by omega),
    Nat.mod_eq_of_lt (by omega)]

theorem decode_encQ {op : BitVec 5} {mk : Nat → Nat → Instr} (hformat : formatOf op.toNat = some .q)
    (hcommand : ∀ w, commandOf op.toNat w = .command (mk (xField w) (yField w)))
    {x y : Nat} (hfits : (fitsCoordField x && fitsCoordField y) = true) :
    decode (encQ op x y) = .command (mk x y) := by
  obtain ⟨hop, hx, hy, hreserved⟩ := fields_encQ op x y
  simp only [fitsCoordField, Bool.and_eq_true, decide_eq_true_eq] at hfits
  rw [decode_of_format hop hformat hreserved, hcommand, hx, hy, Nat.mod_eq_of_lt (by omega),
    Nat.mod_eq_of_lt (by omega)]

theorem decode_encC {op : BitVec 5} {mk : Colour → Instr} (hformat : formatOf op.toNat = some .c)
    (hcommand : ∀ w, commandOf op.toNat w = .command (mk (colorField w))) (c : Colour) :
    decode (encC op c) = .command (mk c) := by
  obtain ⟨hop, hc, hreserved⟩ := fields_encC op c
  rw [decode_of_format hop hformat hreserved, hcommand, hc]

/-- The insertions share one opcode, and `sel` tells them apart (R63). -/
theorem decode_encI {sel : BitVec 3} {mk : Colour → Byte → Instr}
    (hcommand : ∀ w, selField w = sel → insertOf w = .command (mk (colorField w) (byte2Field w)))
    (v : Byte) (c : Colour) : decode (encI 0x16 sel v c) = .command (mk c v) := by
  obtain ⟨hop, hsel, hv, hc, hreserved⟩ := fields_encI 0x16 sel v c
  calc decode (encI 0x16 sel v c)
      = insertOf (encI 0x16 sel v c) := decode_of_format hop rfl hreserved
    _ = .command (mk c v) := by rw [hcommand _ hsel, hc, hv]

/-- An angle that fits its field is the field's signed value (R63). -/
theorem bmod_angle {deg : Int} (hfits : fitsAngleField deg = true) : deg.bmod 65536 = deg := by
  simp only [fitsAngleField, decide_eq_true_eq] at hfits
  exact Int.bmod_eq_of_le (by omega) (by omega)

/-- Settles O2: each format's fields are read back from its word, and operands that fit survive the masks. -/
theorem decodeOfEncode : Obligations.DecodeOfEncode := by
  intro i hwf
  cases i with
  | nop | setdata | dataclr | transpose | reflv | reflh | shifts | scroll | strclr | clrerr | flush =>
    exact decode_encN rfl fun _ => rfl
  | setpx x y c | setpxa x y c => exact decode_encP rfl (fun _ => rfl) hwf c
  | getpx x y | getpxa x y => exact decode_encQ rfl (fun _ => rfl) hwf
  | setall c | shiftc c | unpack c => exact decode_encC rfl (fun _ => rfl) c
  | rotate deg =>
    obtain ⟨hop, hdeg, hreserved⟩ := fields_encA 0x0B deg
    calc decode (encA 0x0B deg)
        = .command (.rotate (degField (encA 0x0B deg))) := decode_of_format hop rfl hreserved
      _ = .command (.rotate deg) := by rw [hdeg, bmod_angle hwf]
  | setorient o =>
    obtain ⟨hop, ho, hreserved⟩ := fields_encO 0x0C o
    calc decode (encO 0x0C o)
        = .command (.setorient (orientField (encO 0x0C o))) := decode_of_format hop rfl hreserved
      _ = .command (.setorient o) := by rw [ho]
  | showchar cp =>
    obtain ⟨hop, hcp, hreserved⟩ := fields_encU 0x0D cp
    calc decode (encU 0x0D cp)
        = .command (.showchar (cpField (encU 0x0D cp))) := decode_of_format hop rfl hreserved
      _ = .command (.showchar cp) := by rw [hcp]
  | pack r g b =>
    obtain ⟨hop, hr, hg, hb, hreserved⟩ := fields_encB 0x14 r g b
    calc decode (encB 0x14 r g b)
        = .command (.pack (byte0Field (encB 0x14 r g b)) (byte1Field (encB 0x14 r g b))
            (byte2Field (encB 0x14 r g b))) := decode_of_format hop rfl hreserved
      _ = .command (.pack r g b) := by rw [hr, hg, hb]
  | insr c v | insg c v | insb c v => exact decode_encI (fun w hsel => by simp [insertOf, hsel]) v c

/-! ## A word that decodes to a command -/

/-- The three insertions of opcode 0x16 (R63, R67). -/
theorem insertOf_eq_command {w : Word} {i : Instr} (h : insertOf w = .command i) :
    (selField w = 0 ∧ i = .insr (colorField w) (byte2Field w)) ∨
    (selField w = 1 ∧ i = .insg (colorField w) (byte2Field w)) ∨
    (selField w = 2 ∧ i = .insb (colorField w) (byte2Field w)) := by
  unfold insertOf at h
  split at h
  case h_1 hsel => cases h; exact .inl ⟨BitVec.eq_of_toNat_eq hsel, rfl⟩
  case h_2 hsel => cases h; exact .inr (.inl ⟨BitVec.eq_of_toNat_eq hsel, rfl⟩)
  case h_3 hsel => cases h; exact .inr (.inr ⟨BitVec.eq_of_toNat_eq hsel, rfl⟩)
  case h_4 => cases h

/-- The row that gives a command is the row of the command's opcode (R64). -/
theorem opcode_of_commandOf {op : Nat} {w : Word} {i : Instr} (h : commandOf op w = .command i) :
    op = (opcodeOf i).toNat := by
  unfold commandOf at h
  split at h
  case h_23 => obtain ⟨_, rfl⟩ | ⟨_, rfl⟩ | ⟨_, rfl⟩ := insertOf_eq_command h <;> rfl
  all_goals cases h <;> rfl

/-- A word that decodes to a command passed the checks of R70 on the command's row. -/
theorem decode_eq_command {w : Word} {i : Instr} (h : decode w = .command i) :
    opField w = opcodeOf i ∧ commandOf (opcodeOf i).toNat w = .command i ∧
    ∀ f, formatOf (opcodeOf i).toNat = some f → w &&& reservedMask f = 0 := by
  unfold decode at h
  split at h
  · cases h
  · next f hformat =>
    split at h
    · next hreserved =>
      have hop := opcode_of_commandOf h
      rw [hop] at h hformat
      exact ⟨BitVec.eq_of_toNat_eq hop, h, fun g hg => Option.some.inj (hformat.symm.trans hg) ▸ hreserved⟩
    · cases h

/-! ## A word put together again from its fields -/

/-- A field of a word that matches `b` under `m` is the field of `b`, if `m` covers it. -/
theorem extractLsb'_of_match {w m b : Word} {lo len : Nat} (hmatch : w &&& m = b)
    (hcover : m.extractLsb' lo len = BitVec.allOnes len) : w.extractLsb' lo len = b.extractLsb' lo len := by
  rw [← hmatch, BitVec.extractLsb'_and, hcover, BitVec.and_allOnes]

/-- Reserved bits that are zero are a field that is zero (R66). -/
theorem zero_of_reserved {w m : Word} {lo len : Nat} (hreserved : w &&& m = 0)
    (hcover : m.extractLsb' lo len = BitVec.allOnes len) : 0#len = w.extractLsb' lo len := by
  rw [extractLsb'_of_match hreserved hcover]
  exact BitVec.extractLsb'_zero.symm

/-- Two neighbouring fields of a word, put together again. -/
theorem append_fields (w : Word) {lo lo' len len' : Nat} (hlo : lo' = lo + len := by rfl) :
    w.extractLsb' lo' len' ++ w.extractLsb' lo len = w.extractLsb' lo (len' + len) :=
  BitVec.extractLsb'_append_extractLsb'_eq_extractLsb' hlo

/-- Every 2-bit code is that of the orientation it names (R10). -/
theorem code_orientationOfCode : ∀ v : BitVec 2, (orientationOfCode v).code = v := by decide

section
variable {w : Word} {op : BitVec 5} (hop : opField w = op)
include hop

theorem encN_fields (hreserved : w &&& reservedMask .n = 0) : encN op = w := by
  rw [← hop, encN, opField, zero_of_reserved (lo := 0) hreserved rfl, append_fields]
  exact BitVec.extractLsb'_eq_self

theorem encP_fields (hreserved : w &&& reservedMask .p = 0) : encP op (xField w) (yField w) (colorField w) = w := by
  rw [← hop, encP, xField, yField, BitVec.ofNat_toNat, BitVec.ofNat_toNat, BitVec.setWidth_eq, BitVec.setWidth_eq,
    opField, colorField, zero_of_reserved (lo := 16) hreserved rfl]
  iterate 4 rw [append_fields]
  exact BitVec.extractLsb'_eq_self

theorem encQ_fields (hreserved : w &&& reservedMask .q = 0) : encQ op (xField w) (yField w) = w := by
  rw [← hop, encQ, xField, yField, BitVec.ofNat_toNat, BitVec.ofNat_toNat, BitVec.setWidth_eq, BitVec.setWidth_eq,
    opField, zero_of_reserved (lo := 0) hreserved rfl]
  iterate 3 rw [append_fields]
  exact BitVec.extractLsb'_eq_self

theorem encC_fields (hreserved : w &&& reservedMask .c = 0) : encC op (colorField w) = w := by
  rw [← hop, encC, opField, colorField, zero_of_reserved (lo := 16) hreserved rfl]
  iterate 2 rw [append_fields]
  exact BitVec.extractLsb'_eq_self

theorem encA_fields (hreserved : w &&& reservedMask .a = 0) : encA op (degField w) = w := by
  rw [encA, degField, BitVec.ofInt_toInt]
  exact encC_fields hop hreserved

theorem encO_fields (hreserved : w &&& reservedMask .o = 0) : encO op (orientField w) = w := by
  rw [← hop, encO, opField, orientField, code_orientationOfCode, zero_of_reserved (lo := 2) hreserved rfl]
  iterate 2 rw [append_fields]
  exact BitVec.extractLsb'_eq_self

theorem encU_fields (hreserved : w &&& reservedMask .u = 0) : encU op (cpField w) = w := by
  rw [← hop, encU, opField, cpField, zero_of_reserved (lo := 21) hreserved rfl]
  iterate 2 rw [append_fields]
  exact BitVec.extractLsb'_eq_self

theorem encB_fields (hreserved : w &&& reservedMask .b = 0) :
    encB op (byte0Field w) (byte1Field w) (byte2Field w) = w := by
  rw [← hop, encB, opField, byte0Field, byte1Field, byte2Field, zero_of_reserved (lo := 24) hreserved rfl]
  iterate 4 rw [append_fields]
  exact BitVec.extractLsb'_eq_self

theorem encI_fields {sel : BitVec 3} (hsel : selField w = sel) : encI op sel (byte2Field w) (colorField w) = w := by
  rw [← hop, ← hsel, encI, opField, selField, byte2Field, colorField]
  iterate 3 rw [append_fields]
  exact BitVec.extractLsb'_eq_self

end

/-- A coordinate field holds at most 15 (R63). -/
theorem fitsCoordField_field (v : BitVec 4) : fitsCoordField v.toNat = true := by
  have := v.isLt
  exact decide_eq_true (by omega)

theorem fitsCoordField_coords (w : Word) : (fitsCoordField (xField w) && fitsCoordField (yField w)) = true :=
  Bool.and_eq_true_iff.2 ⟨fitsCoordField_field _, fitsCoordField_field _⟩

/-- The angle field holds a signed 16-bit number (R63). -/
theorem fitsAngleField_field (w : Word) : fitsAngleField (degField w) = true := by
  have hlow := BitVec.le_toInt (w.extractLsb' 0 16)
  have hhigh := BitVec.toInt_lt (x := w.extractLsb' 0 16)
  exact decide_eq_true (by rw [degField]; omega)

/-- Settles O3: the operands are the word's fields, so they fit, and with the opcode and the zero reserved bits they are
the whole word. -/
theorem encodeOfDecode : Obligations.EncodeOfDecode := by
  intro w i hdec
  obtain ⟨hop, hcommand, hreserved⟩ := decode_eq_command hdec
  cases i with
  | nop | setdata | dataclr | transpose | reflv | reflh | shifts | scroll | strclr | clrerr | flush =>
    exact ⟨rfl, encN_fields hop (hreserved .n rfl)⟩
  | setpx x y c | setpxa x y c =>
    cases hcommand
    exact ⟨fitsCoordField_coords w, encP_fields hop (hreserved .p rfl)⟩
  | getpx x y | getpxa x y =>
    cases hcommand
    exact ⟨fitsCoordField_coords w, encQ_fields hop (hreserved .q rfl)⟩
  | setall c | shiftc c | unpack c =>
    cases hcommand
    exact ⟨rfl, encC_fields hop (hreserved .c rfl)⟩
  | rotate deg =>
    cases hcommand
    exact ⟨fitsAngleField_field w, encA_fields hop (hreserved .a rfl)⟩
  | setorient o =>
    cases hcommand
    exact ⟨rfl, encO_fields hop (hreserved .o rfl)⟩
  | showchar cp =>
    cases hcommand
    exact ⟨rfl, encU_fields hop (hreserved .u rfl)⟩
  | pack r g b =>
    cases hcommand
    exact ⟨rfl, encB_fields hop (hreserved .b rfl)⟩
  | insr c v | insg c v | insb c v =>
    obtain ⟨hsel, heq⟩ | ⟨hsel, heq⟩ | ⟨hsel, heq⟩ := insertOf_eq_command hcommand <;> cases heq
    exact ⟨rfl, encI_fields hop hsel⟩

end Sys2Proof
end

section
/-! PROOF. The words that are illegal, and the rows of the opcode table that a word matches. -/

namespace Sys2Proof

/-! ## Illegal words -/

/-- The opcodes from 0x17 on are reserved (R65). -/
theorem formatOf_eq_none_iff : ∀ op : BitVec 5, formatOf op.toNat = none ↔ 0x17 ≤ op.toNat := by decide

/-- Opcode 0x16 with `sel` from 3 on is illegal (R67). -/
theorem insertOf_eq_illegal_iff (w : Word) : (∃ why, insertOf w = .illegal why) ↔ 3 ≤ (selField w).toNat := by
  unfold insertOf
  split
  case h_1 hsel | h_2 hsel | h_3 hsel => simp [hsel]
  case h_4 h0 h1 h2 =>
    simp only [imp_false] at h0 h1 h2
    exact ⟨fun _ => by omega, fun _ => ⟨_, rfl⟩⟩

/-- Of the rows of R64 only that of 0x16 has illegal words of its own (R65, R67). -/
theorem commandOf_eq_illegal {op : BitVec 5} {w : Word} {f : Format} {why : Illegal}
    (hformat : formatOf op.toNat = some f) (h : commandOf op.toNat w = .illegal why) :
    op = 0x16 ∧ 3 ≤ (selField w).toNat := by
  unfold formatOf at hformat
  split at hformat
  case h_23 hop =>
    rw [hop] at h
    exact ⟨BitVec.eq_of_toNat_eq hop, (insertOf_eq_illegal_iff w).1 ⟨why, h⟩⟩
  case h_24 => cases hformat
  all_goals
    next hop =>
      rw [hop] at h
      cases h

/-- The three reasons for a word to be illegal (R65, R66, R67). -/
theorem decode_eq_illegal_iff (w : Word) : (∃ why, decode w = .illegal why) ↔
    0x17 ≤ (opField w).toNat ∨ (∃ f, formatOf (opField w).toNat = some f ∧ w &&& reservedMask f ≠ 0) ∨
    (opField w = 0x16 ∧ 3 ≤ (selField w).toNat) := by
  constructor
  · rintro ⟨why, h⟩
    cases hformat : formatOf (opField w).toNat with
    | none => exact .inl ((formatOf_eq_none_iff _).1 hformat)
    | some f =>
      by_cases hreserved : w &&& reservedMask f = 0
      · rw [decode_of_format rfl hformat hreserved] at h
        exact .inr (.inr (commandOf_eq_illegal hformat h))
      · exact .inr (.inl ⟨f, rfl, hreserved⟩)
  · rintro (hop | ⟨f, hformat, hreserved⟩ | ⟨hop, hsel⟩)
    · exact ⟨.reservedOpcode, by simp only [decode, (formatOf_eq_none_iff _).2 hop]⟩
    · exact ⟨.reservedBits, by simp only [decode, hformat, if_neg hreserved]⟩
    · have hdecode : decode w = insertOf w := decode_of_format hop rfl BitVec.and_zero
      rw [hdecode]
      exact (insertOf_eq_illegal_iff w).2 hsel

/-! ## The rows of the opcode table -/

/-- The table's rows of one opcode. -/
def rowsAt (op : BitVec 5) : List OpcodeRow :=
  (opcodeRowsLow ++ opcodeRowsHigh).filter fun r => opField r.bits == op

/-- Every row fixes the opcode. -/
theorem opcodeRow_mask_opcode : ∀ r ∈ opcodeRowsLow ++ opcodeRowsHigh, opField r.mask = BitVec.allOnes 5 := by decide

/-- A word matches rows of its own opcode only. -/
theorem rowsOf_eq_filter_rowsAt (w : Word) :
    rowsOf w = (rowsAt (opField w)).filter fun r => w &&& r.mask == r.bits := by
  rw [rowsOf, rowsAt, List.filter_filter]
  refine List.filter_congr fun r hr => ?_
  rw [Bool.eq_iff_iff, Bool.and_eq_true, beq_iff_eq, beq_iff_eq, iff_self_and]
  exact fun hmatch => (extractLsb'_of_match hmatch (opcodeRow_mask_opcode r hr)).symm

/-- The row of every opcode but 0x16 fixes the opcode and the reserved bits of its format. -/
theorem rowsAt_of_format : ∀ op : BitVec 5, op ≠ 0x16 → ∀ f ∈ formatOf op.toNat, ∀ r ∈ rowsAt op,
    r.bits = encN op ∧ r.mask = 0xF8000000 ||| reservedMask f := by decide

/-- A mask that keeps the bits from `lo` on. -/
theorem and_high_mask {hi lo : Nat} (w : BitVec (hi + lo)) :
    w &&& (BitVec.allOnes hi ++ 0#lo) = w.extractLsb' lo hi ++ 0#lo := by
  conv_lhs => rw [← BitVec.extractLsb'_append_extractLsb' (x := w)]
  rw [BitVec.and_append, BitVec.and_allOnes, BitVec.and_zero]

/-- A row with the mask of a format matches a word of its opcode exactly if the reserved bits are zero. -/
theorem match_row_iff (w : Word) (f : Format) :
    w &&& (0xF8000000 ||| reservedMask f) = encN (opField w) ↔ w &&& reservedMask f = 0 := by
  have hop : w &&& 0xF8000000 = encN (opField w) := and_high_mask (hi := 5) (lo := 27) w
  have habsorb : (0xF8000000 ||| reservedMask f) &&& reservedMask f = reservedMask f := by cases f <;> rfl
  have hapart : 0xF8000000 &&& reservedMask f = 0 := by cases f <;> rfl
  rw [← hop]
  constructor
  · intro hmatch
    calc w &&& reservedMask f
        = w &&& (0xF8000000 ||| reservedMask f) &&& reservedMask f := by rw [BitVec.and_assoc, habsorb]
      _ = w &&& 0xF8000000 &&& reservedMask f := by rw [hmatch]
      _ = 0 := by rw [BitVec.and_assoc, hapart]; exact BitVec.and_zero
  · intro hreserved
    rw [BitVec.and_or_distrib_left, hreserved]
    exact BitVec.or_zero

section
variable {w : Word} {op : BitVec 5} {f : Format} (hop : opField w = op) (hne : op ≠ 0x16)
  (hformat : formatOf op.toNat = some f)
include hop hne hformat

/-- A word of such an opcode matches its row exactly if the reserved bits are zero. -/
theorem match_rowsAt_iff {r : OpcodeRow} (hr : r ∈ rowsAt op) :
    (w &&& r.mask == r.bits) = true ↔ w &&& reservedMask f = 0 := by
  obtain ⟨hbits, hmask⟩ := rowsAt_of_format op hne f hformat r hr
  rw [beq_iff_eq, hbits, hmask, ← hop]
  exact match_row_iff w f

theorem rowsOf_of_reserved_zero (hreserved : w &&& reservedMask f = 0) : rowsOf w = rowsAt op := by
  rw [rowsOf_eq_filter_rowsAt, hop]
  exact List.filter_eq_self.2 fun r hr => (match_rowsAt_iff hop hne hformat hr).2 hreserved

theorem rowsOf_of_reserved_ne (hreserved : w &&& reservedMask f ≠ 0) : rowsOf w = [] := by
  rw [rowsOf_eq_filter_rowsAt, hop]
  exact List.filter_eq_nil_iff.2 fun r hr hmatch => hreserved ((match_rowsAt_iff hop hne hformat hr).1 hmatch)

end

/-- The rows of opcode 0x16 fix the opcode and `sel`. -/
theorem rowsOf_insertion {w : Word} (hop : opField w = 0x16) :
    rowsOf w = (rowsAt 0x16).filter fun r => ((0x16 : BitVec 5) ++ selField w) ++ 0#24 == r.bits := by
  have hmask : ∀ r ∈ rowsAt 0x16, r.mask = 0xFF000000 := by decide
  have hhigh : w &&& 0xFF000000 = (opField w ++ selField w) ++ 0#24 := by
    rw [opField, selField, append_fields]
    exact and_high_mask (hi := 8) (lo := 24) w
  rw [rowsOf_eq_filter_rowsAt, hop]
  exact List.filter_congr fun r hr => by rw [hmask r hr, hhigh, hop]

/-- No row has a reserved opcode. -/
theorem rowsAt_reserved : ∀ op : BitVec 5, 0x17 ≤ op.toNat → rowsAt op = [] := by decide

/-- No insertion has a `sel` from 3 on. -/
theorem rowsAt_insertion_reserved : ∀ sel : BitVec 3, 3 ≤ sel.toNat →
    ((rowsAt 0x16).filter fun r => ((0x16 : BitVec 5) ++ sel) ++ 0#24 == r.bits) = [] := by decide

/-- A word that decodes to a command matches the command's row and no other. -/
theorem rowsOf_command {w : Word} {i : Instr} (hdec : decode w = .command i) :
    (rowsOf w).map OpcodeRow.name = [mnemonic i] := by
  obtain ⟨hop, hcommand, hreserved⟩ := decode_eq_command hdec
  cases i with
  | nop | setpx | getpx | setpxa | getpxa | setall | setdata | dataclr | transpose | reflv | reflh | rotate | setorient
  | showchar | shiftc | shifts | scroll | strclr | clrerr | flush | pack | unpack =>
    rw [rowsOf_of_reserved_zero hop nofun rfl (hreserved _ rfl)]
    rfl
  | insr c v | insg c v | insb c v =>
    obtain ⟨hsel, heq⟩ | ⟨hsel, heq⟩ | ⟨hsel, heq⟩ := insertOf_eq_command hcommand <;> cases heq
    rw [rowsOf_insertion hop, hsel]
    rfl

/-- An illegal word matches no row. -/
theorem rowsOf_illegal {w : Word} {why : Illegal} (hdec : decode w = .illegal why) : rowsOf w = [] := by
  obtain hop | ⟨f, hformat, hreserved⟩ | ⟨hop, hsel⟩ := (decode_eq_illegal_iff w).1 ⟨why, hdec⟩
  · rw [rowsOf_eq_filter_rowsAt, rowsAt_reserved _ hop, List.filter_nil]
  · refine rowsOf_of_reserved_ne rfl (fun hop => hreserved ?_) hformat hreserved
    rw [hop] at hformat
    cases hformat
    exact BitVec.and_zero
  · rw [rowsOf_insertion hop, rowsAt_insertion_reserved _ hsel]

/-- Settles O5: a command matches its own row, an illegal word none. -/
theorem everyWordIsOneRowOrIllegal : Obligations.EveryWordIsOneRowOrIllegal :=
  ⟨fun _ _ => rowsOf_command, fun _ _ => rowsOf_illegal, by decide, by decide⟩

end Sys2Proof
end

section
/-! PROOF. The encoding functions as shifts and ors, and the words written out in the spec. -/

namespace Sys2Proof

/-- A concatenation is the high part shifted past the low one. -/
theorem append_eq_shift_or {m n : Nat} (hi : BitVec m) (lo : BitVec n) :
    hi ++ lo = hi.setWidth (m + n) <<< n ||| lo.setWidth (m + n) := by
  rw [← BitVec.setWidth_append_eq_shiftLeft_setWidth_or, BitVec.setWidth_eq]

/-- A concatenation inside a wider word, with its low part zero. -/
theorem setWidth_append_zero {m k w : Nat} (hi : BitVec m) : (hi ++ 0#k).setWidth w = hi.setWidth w <<< k := by
  rw [BitVec.setWidth_append_eq_shiftLeft_setWidth_or, BitVec.setWidth_zero, BitVec.or_zero]

/-- An opcode, a reserved field and an operand (R62). -/
theorem append_zero_append_eq_shift_or {m k n : Nat} (op : BitVec m) (v : BitVec n) :
    op ++ 0#k ++ v = op.setWidth (m + k + n) <<< (k + n) ||| v.setWidth (m + k + n) := by
  rw [append_eq_shift_or, setWidth_append_zero, BitVec.shiftLeft_add]

/-- The 4-bit field of a coordinate is its number masked. -/
theorem setWidth_coord (n : Nat) : (BitVec.ofNat 4 n).setWidth 32 = BitVec.ofNat 32 (n % 16) := by
  apply BitVec.eq_of_toNat_eq
  simp only [BitVec.toNat_setWidth, BitVec.toNat_ofNat]

/-- The 16-bit field of an angle is its 32 bits masked. -/
theorem setWidth_angle (deg : Int) : (BitVec.ofInt 16 deg).setWidth 32 = BitVec.ofInt 32 deg &&& 0xFFFF := by
  apply BitVec.eq_of_toNat_eq
  have hmask : (BitVec.ofInt 32 deg &&& 0xFFFF).toNat = (BitVec.ofInt 32 deg).toNat % 65536 :=
    Nat.and_two_pow_sub_one_eq_mod _ 16
  rw [hmask]
  simp only [BitVec.toNat_setWidth, BitVec.toNat_ofInt]
  omega

section
variable (op : BitVec 5)

theorem encN_eq_shift : encN op = op.zeroExtend 32 <<< 27 := by
  rw [encN, ← setWidth_append_zero, BitVec.setWidth_eq]

/-- The opcode and the two coordinates, which formats P and Q share. -/
theorem setWidth_coords (x y : Nat) : (op ++ BitVec.ofNat 4 x ++ BitVec.ofNat 4 y).setWidth 32 <<< 19 =
    (op.zeroExtend 32 <<< 27 ||| BitVec.ofNat 32 (x % 16) <<< 23 ||| BitVec.ofNat 32 (y % 16) <<< 19) := by
  simp only [BitVec.setWidth_append_eq_shiftLeft_setWidth_or, setWidth_coord, BitVec.shiftLeft_or_distrib,
    ← BitVec.shiftLeft_add]

theorem encP_eq_or (x y : Nat) (c : Colour) : encP op x y c =
    (op.zeroExtend 32 <<< 27 ||| BitVec.ofNat 32 (x % 16) <<< 23 ||| BitVec.ofNat 32 (y % 16) <<< 19
      ||| c.zeroExtend 32) := by
  rw [encP, append_zero_append_eq_shift_or, ← setWidth_coords]

theorem encQ_eq_or (x y : Nat) : encQ op x y =
    (op.zeroExtend 32 <<< 27 ||| BitVec.ofNat 32 (x % 16) <<< 23 ||| BitVec.ofNat 32 (y % 16) <<< 19) := by
  rw [encQ, ← setWidth_coords, ← setWidth_append_zero, BitVec.setWidth_eq]

theorem encA_eq_or (deg : Int) : encA op deg = (op.zeroExtend 32 <<< 27 ||| (BitVec.ofInt 32 deg &&& 0xFFFF)) := by
  rw [encA, append_zero_append_eq_shift_or, setWidth_angle]

theorem encB_eq_or (r g b : Byte) : encB op r g b =
    (op.zeroExtend 32 <<< 27 ||| b.zeroExtend 32 <<< 16 ||| g.zeroExtend 32 <<< 8 ||| r.zeroExtend 32) := by
  rw [encB, append_eq_shift_or]
  simp only [BitVec.setWidth_append_eq_shiftLeft_setWidth_or, BitVec.setWidth_zero,
    BitVec.or_zero, BitVec.shiftLeft_or_distrib, ← BitVec.shiftLeft_add]

theorem encI_eq_or (sel : BitVec 3) (v : Byte) (c : Colour) : encI op sel v c =
    (op.zeroExtend 32 <<< 27 ||| sel.zeroExtend 32 <<< 24 ||| v.zeroExtend 32 <<< 16 ||| c.zeroExtend 32) := by
  rw [encI, append_eq_shift_or]
  simp only [BitVec.setWidth_append_eq_shiftLeft_setWidth_or, BitVec.shiftLeft_or_distrib, ← BitVec.shiftLeft_add]

end

/-- Settles O4: each layout of R62 is a concatenation, which is a shift and an or. -/
theorem encodingFunctions : Obligations.EncodingFunctions :=
  fun op x y c deg o cp r g b v sel =>
    ⟨encN_eq_shift op, encP_eq_or op x y c, encQ_eq_or op x y, append_zero_append_eq_shift_or op c, encA_eq_or op deg,
      append_zero_append_eq_shift_or op o.code, append_zero_append_eq_shift_or op cp, encB_eq_or op r g b,
      encI_eq_or op sel v c, by decide, by decide⟩

/-- Settles O1: the decoder, run on the ten words. -/
theorem specWordsDecode : Obligations.SpecWordsDecode := by
  unfold Obligations.SpecWordsDecode
  decide

end Sys2Proof
end

section
/-! PROOF. The guard of a command, and the write of an illegal word. -/

namespace Sys2Proof.Machine

/-- Settles O8: every command is a body behind the guard of R70. -/
theorem commandsAreGuarded : Obligations.CommandsAreGuarded := by
  intro i s
  obtain ⟨body, hexec, _⟩ := exec_eq_command i
  rw [hexec]
  exact ⟨command_fault body, command_busy body⟩

/-- In a ready block an illegal word raises ILLEGAL and has no other effect (R65–R67). -/
theorem step_write_illegal {s : State} {w : Word} {why : Illegal} {rest : List Input} (hready : Ready s)
    (hin : s.inputs = .portWrite cmdAddr w :: rest) (hdec : decode w = .illegal why) :
    step s = .next { s with inputs := rest, err := .illegal } := by
  have hready' : Ready { s with inputs := rest } := hready
  rw [step_write_cmd hin hready.1 portReg_cmdAddr, writeCmd, hdec]
  exact command_ready _ hready'

/-- The opcode of R62, as a shift. -/
theorem ushiftRight_27_eq_opField (w : Word) : (w >>> 27).toNat = (opField w).toNat := by
  have := w.isLt
  rw [opField, BitVec.toNat_ushiftRight, BitVec.extractLsb'_toNat, Nat.shiftRight_eq_div_pow]
  omega

/-- `sel` of R63, as a shift and a mask. -/
theorem ushiftRight_24_and_eq_selField (w : Word) : ((w >>> 24) &&& 0x7).toNat = (selField w).toNat := by
  rw [selField, BitVec.extractLsb'_toNat, BitVec.toNat_and, BitVec.toNat_ushiftRight]
  exact Nat.and_two_pow_sub_one_eq_mod _ 3

/-- Settles O7: the three cases are the reasons for which a word is illegal. -/
theorem illegalWordsOnlySetErr : Obligations.IllegalWordsOnlySetErr := by
  intro s w rest hready hin hcase
  rw [ushiftRight_27_eq_opField, ushiftRight_24_and_eq_selField] at hcase
  obtain ⟨why, hdec⟩ : ∃ why, decode w = .illegal why :=
    (decode_eq_illegal_iff w).2 (hcase.imp_right (Or.imp_right (And.imp_left BitVec.eq_of_toNat_eq)))
  exact step_write_illegal hready hin hdec

end Sys2Proof.Machine
end

section
/-! PROOF. Inserting one component of a colour. -/

namespace Sys2Proof.Machine

/-! ## A colour as its three fields (R76) -/

theorem toNat_append_fields (r : BitVec 5) (g : BitVec 6) (b : BitVec 5) :
    (r ++ g ++ b).toNat = r.toNat * 2048 + g.toNat * 32 + b.toNat := by
  simp only [toNat_append_eq_add]
  omega

theorem red_append_green_append_blue (c : Colour) : red c ++ green c ++ blue c = c := by
  apply BitVec.eq_of_toNat_eq
  rw [toNat_append_fields, toNat_red, toNat_green, toNat_blue]
  omega

/-- A mask and an or act on each field alone. -/
theorem and_or_fields (c : Colour) (mr r mb b : BitVec 5) (mg g : BitVec 6) :
    (c &&& (mr ++ mg ++ mb)) ||| (r ++ g ++ b) =
      ((red c &&& mr) ||| r) ++ ((green c &&& mg) ||| g) ++ ((blue c &&& mb) ||| b) := by
  rw [← BitVec.or_append, ← BitVec.or_append, ← BitVec.and_append, ← BitVec.and_append,
    red_append_green_append_blue]

/-! ## The value that is inserted, in its field -/

theorem red_field_eq_shiftLeft (r : BitVec 5) : r ++ 0#6 ++ 0#5 = r.zeroExtend 16 <<< 11 := by
  apply BitVec.eq_of_toNat_eq
  simp only [toNat_append_fields, BitVec.toNat_shiftLeft, BitVec.toNat_setWidth, Nat.shiftLeft_eq, BitVec.toNat_ofNat]
  omega

theorem green_field_eq_shiftLeft (g : BitVec 6) : 0#5 ++ g ++ 0#5 = g.zeroExtend 16 <<< 5 := by
  apply BitVec.eq_of_toNat_eq
  simp only [toNat_append_fields, BitVec.toNat_shiftLeft, BitVec.toNat_setWidth, Nat.shiftLeft_eq, BitVec.toNat_ofNat]
  omega

theorem blue_field_eq_zeroExtend (b : BitVec 5) : 0#5 ++ 0#6 ++ b = b.zeroExtend 16 := by
  apply BitVec.eq_of_toNat_eq
  simp only [toNat_append_fields, BitVec.toNat_setWidth, BitVec.toNat_ofNat]
  omega

/-! ## The insertions (R79–R81) -/

theorem insertRed_eq_append (c : Colour) (v : Byte) : insertRed c v = v.extractLsb' 0 5 ++ green c ++ blue c := by
  calc insertRed c v
      = (c &&& (0#5 ++ BitVec.allOnes 6 ++ BitVec.allOnes 5)) ||| (v.extractLsb' 0 5 ++ 0#6 ++ 0#5) := by
        rw [red_field_eq_shiftLeft]; rfl
    _ = _ := by
        simp only [and_or_fields, BitVec.and_zero, BitVec.zero_or, BitVec.and_allOnes, BitVec.or_zero]

theorem insertGreen_eq_append (c : Colour) (v : Byte) : insertGreen c v = red c ++ v.extractLsb' 0 6 ++ blue c := by
  calc insertGreen c v
      = (c &&& (BitVec.allOnes 5 ++ 0#6 ++ BitVec.allOnes 5)) ||| (0#5 ++ v.extractLsb' 0 6 ++ 0#5) := by
        rw [green_field_eq_shiftLeft]; rfl
    _ = _ := by
        simp only [and_or_fields, BitVec.and_zero, BitVec.zero_or, BitVec.and_allOnes, BitVec.or_zero]

theorem insertBlue_eq_append (c : Colour) (v : Byte) : insertBlue c v = red c ++ green c ++ v.extractLsb' 0 5 := by
  calc insertBlue c v
      = (c &&& (BitVec.allOnes 5 ++ BitVec.allOnes 6 ++ 0#5)) ||| (0#5 ++ 0#6 ++ v.extractLsb' 0 5) := by
        rw [blue_field_eq_zeroExtend]; rfl
    _ = _ := by
        simp only [and_or_fields, BitVec.and_zero, BitVec.zero_or, BitVec.and_allOnes, BitVec.or_zero]

/-- RESULT, written with a colour put together from its fields. -/
theorem toNat_putResult_append_fields (r : BitVec 5) (g : BitVec 6) (b : BitVec 5) (s : State) :
    (putResult (r ++ g ++ b) s).result.toNat = r.toNat * 2048 + g.toNat * 32 + b.toNat := by
  rw [putResult_result, BitVec.toNat_setWidth, toNat_append_fields]
  omega

/-- Settles O49: the byte's low bits take the place of one field, and the other two are the colour's. -/
theorem insertsReplaceOneComponent : Obligations.InsertsReplaceOneComponent := by
  intro s c v hready
  refine ⟨⟨putResult (insertRed c v) s, command_ready _ hready, rfl, ?_⟩,
    ⟨putResult (insertGreen c v) s, command_ready _ hready, rfl, ?_⟩,
    ⟨putResult (insertBlue c v) s, command_ready _ hready, rfl, ?_⟩⟩
  · rw [insertRed_eq_append, toNat_putResult_append_fields, BitVec.extractLsb'_toNat, toNat_green, toNat_blue,
      Nat.shiftRight_zero]
    omega
  · rw [insertGreen_eq_append, toNat_putResult_append_fields, BitVec.extractLsb'_toNat, toNat_red, toNat_blue,
      Nat.shiftRight_zero]
  · rw [insertBlue_eq_append, toNat_putResult_append_fields, BitVec.extractLsb'_toNat, toNat_red, toNat_green,
      Nat.shiftRight_zero]
    omega

end Sys2Proof.Machine
end

section
/-! PROOF. The staging buffer: DATA, SETDATA, DATACLR and STRCLR, and the pixels of the window loaded back. -/

namespace Sys2Proof.Machine

/-! ## A write to DATA -/

/-- Bits [31:16] of a word are zero exactly if the word fits its low half. -/
theorem high_half_eq_zero_iff (v : Word) : v.extractLsb' 16 16 = 0 ↔ v.toNat / 2 ^ 16 = 0 := by
  have hv := v.isLt
  rw [← BitVec.toNat_inj, BitVec.extractLsb'_toNat, Nat.shiftRight_eq_div_pow, BitVec.ofNat_eq_ofNat,
    BitVec.toNat_ofNat, Nat.zero_mod]
  omega

theorem writeData_busy {s : State} (v : Word) (hbusy : s.busy = true) : writeData v s = { s with err := .busy } :=
  if_pos hbusy

section
variable {s : State} {v : Word} (hready : Ready s)
include hready

theorem writeData_illegal (hhigh : v.toNat / 2 ^ 16 ≠ 0) : writeData v s = { s with err := .illegal } := by
  rw [writeData, if_neg (Bool.eq_false_iff.1 hready.busy), if_pos (mt (high_half_eq_zero_iff v).1 hhigh)]
  rfl

variable (hlow : v.toNat / 2 ^ 16 = 0)
include hlow

theorem writeData_overflow (hfull : s.scnt.val = 64) : writeData v s = { s with sovf := true } := by
  simp [writeData, hready.busy, (high_half_eq_zero_iff v).2 hlow, pushCell_full s.stage s.scnt _ hfull]

theorem writeData_append (hroom : s.scnt.val < 64) : writeData v s =
    { s with
      stage := s.stage.set s.scnt.val (BitVec.ofNat 16 v.toNat) hroom
      scnt := ⟨s.scnt.val + 1, by omega⟩ } := by
  simp [writeData, hready.busy, (high_half_eq_zero_iff v).2 hlow, pushCell_of_lt s.stage s.scnt _ hroom,
    extractLsb'_colour]

end

/-- Settles O15: outside the fault state the step is the write to DATA, case by case. -/
theorem dataWriteAppends : Obligations.DataWriteAppends := by
  intro s a v rest ha hin
  by_cases hfault : s.fault = true
  · have hnever : ∀ {P : Prop}, s.fault = false → P := fun h => nomatch hfault.symm.trans h
    exact ⟨_, step_write_fault hin hfault, fun _ => rfl, hnever, fun h => hnever h.1, fun h => hnever h.1,
      fun h => hnever h.1⟩
  · have hrun : Ready s → Ready { s with inputs := rest } := id
    refine ⟨_, step_write_data hin (Bool.eq_false_of_not_eq_true hfault) (portReg_data ha), fun h => absurd h hfault,
      fun _ hbusy => writeData_busy v hbusy, fun hready hhigh => writeData_illegal (hrun hready) hhigh,
      fun hready hlow hfull => writeData_overflow (hrun hready) hlow hfull, fun hready hlow hroom => ?_⟩
    rw [writeData_append (hrun hready) hlow hroom]
    exact ⟨rfl, rfl, rfl⟩

/-! ## Emptying the buffers, and SETDATA -/

/-- Settles O29: each body is the record update itself. -/
theorem clearsEmptyTheBuffers : Obligations.ClearsEmptyTheBuffers :=
  fun _ hready => ⟨command_ready clearStage hready, command_ready _ hready⟩

section
variable {s : State} (hready : Ready s)
include hready

/-- SETDATA with 64 pixels and none dropped (R95). -/
theorem exec_setdata_full (hfull : s.scnt.val = 64 ∧ s.sovf = false) :
    exec .setdata s = .next (mutate s.stage (clearStage s)) :=
  (command_ready _ hready).trans (congrArg _ (commitStage_full s _ hfull))

/-- SETDATA with another count (R95, R147). -/
theorem exec_setdata_length (hcount : ¬ (s.scnt.val = 64 ∧ s.sovf = false)) :
    exec .setdata s = .next { s with scnt := 0, sovf := false, err := .length } :=
  (command_ready _ hready).trans (congrArg _ (commitStage_length s _ hcount))

end

/-- A frame emitted after the staging buffer was emptied is one frame emitted. -/
theorem EmittedOnce.of_clearStage {s t : State} (h : EmittedOnce (clearStage s) t) : EmittedOnce s t :=
  ⟨h.frames, h.region_none, h.region_image, h.region_above, h.received_none, h.received_frame⟩

/-- Settles O28: the frame drawn is the staging buffer, emptied before. -/
theorem setdataCommitsOrRaisesLength : Obligations.SetdataCommitsOrRaisesLength := by
  intro s hready
  refine ⟨fun hfull => ⟨_, exec_setdata_full hready hfull, fun _ => rfl, rfl, rfl, ?_,
    mutate_onlyDisplay _ (clearStage s)⟩, exec_setdata_length hready⟩
  exact (mutate_emittedOnce s.stage (clearStage s)).of_clearStage

/-! ## The staged pixels -/

/-- The pixels staged so far: the entries of STAGE below SCNT (R23). -/
def stagedPixels (s : State) : List Colour := s.stage.toList.take s.scnt.val

theorem stagedPixels_clearStage (s : State) : stagedPixels (clearStage s) = [] := rfl

/-- A full staging buffer is the staged pixels (R23). -/
theorem toList_stage_of_full {s : State} (hfull : s.scnt.val = 64) : s.stage.toList = stagedPixels s := by
  rw [stagedPixels, hfull, List.take_of_length_le (by simp)]

/-- The state after a pixel has been staged where there is room. -/
theorem writeData_zeroExtend {s : State} (p : Colour) (hready : Ready s) (hroom : s.scnt.val < 64) :
    writeData (p.zeroExtend 32) s =
      { s with stage := s.stage.set s.scnt.val p hroom, scnt := ⟨s.scnt.val + 1, by omega⟩ } := by
  have hp : (p.zeroExtend 32).toNat = p.toNat := by
    rw [BitVec.toNat_setWidth]
    exact Nat.mod_eq_of_lt (p.isLt.trans (by decide))
  have hlow : (p.zeroExtend 32).toNat / 2 ^ 16 = 0 := by
    rw [hp]
    exact Nat.div_eq_of_lt p.isLt
  rw [writeData_append hready hlow hroom, hp, BitVec.ofNat_toNat, BitVec.setWidth_eq]

/-- A DATA write appends to the staged pixels (R94). -/
theorem stagedPixels_append {s : State} (p : Colour) (hroom : s.scnt.val < 64) :
    stagedPixels { s with stage := s.stage.set s.scnt.val p hroom, scnt := ⟨s.scnt.val + 1, by omega⟩ } =
      stagedPixels s ++ [p] := by
  have hlen : s.scnt.val < (s.stage.toList.set s.scnt.val p).length := by simpa
  simp only [stagedPixels, Vector.toList_set, List.take_succ_eq_append_getElem hlen, List.getElem_set_self,
    List.take_set_of_le le_rfl]

/-- `t` is `s` after the pixels `ps` have been staged: they follow those staged before, and nothing but the staging
buffer has changed (R94). -/
structure Staged (ps : List Colour) (s t : State) : Prop where
  rest : t = { s with stage := t.stage, scnt := t.scnt }
  count : t.scnt.val = s.scnt.val + ps.length
  pixels : stagedPixels t = stagedPixels s ++ ps

/-- DATA writes for which there is room stage their pixels in order (R93, R94). -/
theorem writeAllData_staged (ps : List Colour) : ∀ {s : State}, Ready s → s.scnt.val + ps.length ≤ 64 →
    Staged ps s (writeAllData ps s) := by
  induction ps with
  | nil => exact fun _ _ => ⟨rfl, rfl, (List.append_nil _).symm⟩
  | cons p ps ih =>
    intro s hready hroom
    rw [List.length_cons] at hroom
    have hfree : s.scnt.val < 64 := by omega
    rw [writeAllData, writeData_zeroExtend p hready hfree]
    obtain ⟨hrest, hcount, hpixels⟩ :=
      ih (s := { s with stage := s.stage.set s.scnt.val p hfree, scnt := ⟨s.scnt.val + 1, by omega⟩ }) hready
        (by simp only; omega)
    refine ⟨hrest, ?_, ?_⟩
    · rw [hcount, List.length_cons, Nat.add_right_comm, Nat.add_assoc]
    · rw [hpixels, stagedPixels_append, List.append_assoc, List.singleton_append]

/-! ## The pixels of the window -/

/-- FBWIN[j] stands at word 64 + j of the port (R40). -/
theorem portReg_fbwin_word (j : Fin 32) : portReg (BitVec.ofNat 10 (64 + j.val)) = .fbwin j := by
  apply portReg_fbwin
  rw [byteOffset, BitVec.toNat_ofNat]
  omega

theorem fbWord_low (b : Frame) (j : Fin 32) : (fbWord b j).extractLsb' 0 16 = cell b ⟨2 * j.val, by omega⟩ := by
  rw [fbWord, BitVec.extractLsb'_append_eq_right]

theorem fbWord_high (b : Frame) (j : Fin 32) : (fbWord b j).extractLsb' 16 16 = cell b ⟨2 * j.val + 1, by omega⟩ := by
  rw [fbWord, BitVec.extractLsb'_append_eq_left]

/-- A frame, cell by cell. -/
theorem toList_eq_ofFn_cell (b : Frame) : b.toList = List.ofFn (cell b) :=
  List.ext_getElem (by simp) fun i _ _ => by rw [List.getElem_ofFn, Vector.getElem_toList, cell]

/-- The halves of the window's words, low half first, are the framebuffer in native order (R45). -/
theorem window_pixels (s : State) :
    (List.finRange 32).flatMap (fun j =>
      [(portValue (BitVec.ofNat 10 (64 + j.val)) s).extractLsb' 0 16,
        (portValue (BitVec.ofNat 10 (64 + j.val)) s).extractLsb' 16 16]) = s.fb.toList := by
  simp only [portValue_fbwin s (portReg_fbwin_word _), fbWord_low, fbWord_high]
  rw [toList_eq_ofFn_cell, List.ofFn_mul' (m := 2) (n := 32), List.ofFn_eq_map, List.flatMap_def]
  rfl

/-- 64 pixels staged in an empty staging buffer are the frame that SETDATA draws (R95). -/
theorem Staged.exec_setdata {s t : State} {b : Frame} (hstaged : Staged b.toList (clearStage s) t)
    (hready : Ready s) : exec .setdata t = .next (mutate b (clearStage t)) := by
  obtain ⟨hrest, hcount, hpixels⟩ := hstaged
  have hready' : Ready t := by rw [hrest]; exact hready
  have hsovf : t.sovf = false := congrArg State.sovf hrest
  have hfull : t.scnt.val = 64 := by rw [hcount, Vector.length_toList]; rfl
  have hstage : t.stage = b := by
    apply Vector.toList_inj.1
    rw [toList_stage_of_full hfull, hpixels, stagedPixels_clearStage, List.nil_append]
  rw [exec_setdata_full hready' ⟨hfull, hsovf⟩, hstage]

/-- Settles O30: the 64 pixels of the window fill the staging buffer, so SETDATA draws the frame they were read from. -/
theorem windowRoundTrip : Obligations.WindowRoundTrip := by
  intro s hready
  have hstaged : Staged s.fb.toList (clearStage s) (writeAllData s.fb.toList (clearStage s)) :=
    writeAllData_staged s.fb.toList hready (by simp)
  have hframes := congrArg State.frames hstaged.rest
  have herr := congrArg State.err hstaged.rest
  exact ⟨window_pixels s, _, _, command_ready clearStage hready, hstaged.exec_setdata hready, rfl,
    congrArg (· ++ [s.fb]) hframes, rfl, rfl, herr⟩

end Sys2Proof.Machine
end

section
/-! PROOF. The mux: its mappings as powers of one rotation, and that it is a bijection. -/

namespace Sys2Proof.Machine

/-! ## The mux as powers of ρ -/

theorem idx_right (x y : Fin 8) : idx .right x y = cellIdx (mirror y) x := by
  ext; simp only [idx, cellIdx, mirror]; omega

theorem idx_down (x y : Fin 8) : idx .down x y = cellIdx (mirror x) (mirror y) := by
  ext; simp only [idx, cellIdx, mirror]; omega

theorem idx_left (x y : Fin 8) : idx .left x y = cellIdx y (mirror x) := by
  ext; simp only [idx, cellIdx, mirror]; omega

/-- Settles O22: the four mappings are ρ repeated zero to three times, and the table is computed. -/
theorem muxIsRho : Obligations.MuxIsRho := by
  refine ⟨fun o x y => ?_, fun o => ?_⟩
  · cases o with
    | up => exact idx_up x y
    | right => exact idx_right x y
    | down => exact idx_down x y
    | left => exact (idx_left x y).trans (congrArg (cellIdx · (mirror x)) (mirror_mirror y).symm)
  · cases o <;> decide

/-! ## The mux as a bijection -/

/-- Each index is that of exactly one logical place (R90). -/
theorem idx_bijective (o : Orientation) : Function.Bijective fun p : Fin 8 × Fin 8 => idx o p.1 p.2 :=
  ⟨fun _ _ h => Prod.ext_iff.2 (idx_eq_idx h), fun i => ⟨logicalOf o i, idx_logicalOf o i⟩⟩

/-- The first of several commands, where it has a next state. -/
theorem execAll_cons {i : Instr} {s t : State} (is : List Instr) (hexec : exec i s = .next t) :
    execAll (i :: is) s = execAll is t := by
  simp only [execAll, hexec]

/-- Settles O26: SETPX and GETPX take the same cell, and the frame keeps the others. -/
theorem muxIsABijection : Obligations.MuxIsABijection := by
  refine ⟨idx_bijective, fun s x y c hready => ?_⟩
  have hset : exec (.setpx x.val y.val c) s = .next (mutate (setCell s.fb (idx s.orient x y) c) s) :=
    command_withCoord_in hready _ x y
  have hready' : Ready (mutate (setCell s.fb (idx s.orient x y) c) s) := hready
  have hget : exec (.getpx x.val y.val) (mutate (setCell s.fb (idx s.orient x y) c) s) = .next _ :=
    command_withCoord_in hready' _ x y
  refine ⟨_, (execAll_cons _ hset).trans (execAll_cons _ hget), ?_, fun j hj => setCell_other s.fb c hj⟩
  rw [putResult_result, mutate_fb, mutate_orient, setCell_self]

end Sys2Proof.Machine
end

section
/-! PROOF. The transforms: cells of a turned frame, runs of ROTATE, and SETORIENT. -/

namespace Sys2Proof.Machine

/-- Settles O31: each command draws the frame whose cells its rule gives. -/
theorem primitiveTransforms : Obligations.PrimitiveTransforms := by
  intro s hready
  refine ⟨⟨_, command_ready _ hready, ?_, mutate_emittedOnce _ s, mutate_onlyDisplay _ s⟩,
    ⟨_, command_ready _ hready, ?_, mutate_emittedOnce _ s, mutate_onlyDisplay _ s⟩,
    ⟨_, command_ready _ hready, ?_, mutate_emittedOnce _ s, mutate_onlyDisplay _ s⟩⟩
  · exact cellAt_transposed s.fb
  · exact cellAt_reflectedV s.fb
  · exact cellAt_reflectedH s.fb

/-! ## The cells of a turned frame (R105) -/

theorem cellAt_rotated_one (b : Frame) (x y : Fin 8) : cellAt (rotated 1 b) x y = cellAt b (mirror y) x := by
  simp only [rotated, cellAt_reflectedH, cellAt_transposed]

theorem cellAt_rotated_two (b : Frame) (x y : Fin 8) : cellAt (rotated 2 b) x y = cellAt b (mirror x) (mirror y) := by
  simp only [rotated, cellAt_reflectedV, cellAt_reflectedH]

theorem cellAt_rotated_three (b : Frame) (x y : Fin 8) : cellAt (rotated 3 b) x y = cellAt b y (mirror x) := by
  simp only [rotated, cellAt_reflectedV, cellAt_transposed]

/-! ## Turns as powers of ρ -/

/-- ρ: the native place whose cell a quarter turn brings to a place (R91, R105). -/
def turnedFrom (p : Fin 8 × Fin 8) : Fin 8 × Fin 8 := (mirror p.2, p.1)

/-- The cell at a native place. -/
def cellAtPlace (b : Frame) (p : Fin 8 × Fin 8) : Colour := cellAt b p.1 p.2

/-- Four quarter turns bring every place back. -/
theorem isPeriodicPt_turnedFrom (p : Fin 8 × Fin 8) : Function.IsPeriodicPt turnedFrom 4 p :=
  Prod.ext (mirror_mirror p.1) (mirror_mirror p.2)

theorem cellAtPlace_rotated (k : Fin 4) (b : Frame) (p : Fin 8 × Fin 8) :
    cellAtPlace (rotated k b) p = cellAtPlace b (turnedFrom^[k.val] p) := by
  match k with
  | 0 => rfl
  | 1 => exact cellAt_rotated_one b p.1 p.2
  | 2 => exact cellAt_rotated_two b p.1 p.2
  | 3 => exact (cellAt_rotated_three b p.1 p.2).trans (congrArg (cellAt b · (mirror p.1)) (mirror_mirror p.2).symm)

/-- The mux reads a logical cell at a power of ρ (R91). -/
theorem cell_idx (b : Frame) (o : Orientation) (x y : Fin 8) :
    cell b (idx o x y) = cellAtPlace b (turnedFrom^[o.code.toNat] (x, y)) :=
  congrArg (cell b) (muxIsRho.1 o x y)

/-- Rotations add: each is a power of ρ, whose fourth power is the identity (R108). -/
theorem rotated_rotated (j k : Fin 4) (b : Frame) : rotated j (rotated k b) = rotated (j + k) b := by
  refine frame_ext_native fun x y => ?_
  calc cellAtPlace (rotated j (rotated k b)) (x, y)
      = cellAtPlace b (turnedFrom^[k.val + j.val] (x, y)) := by
        rw [cellAtPlace_rotated, cellAtPlace_rotated, Function.iterate_add_apply]
    _ = cellAtPlace b (turnedFrom^[(j.val + k.val) % 4] (x, y)) := by
        rw [(isPeriodicPt_turnedFrom _).iterate_mod_apply, Nat.add_comm]
    _ = cellAtPlace (rotated (j + k) b) (x, y) := by rw [cellAtPlace_rotated, Fin.val_add]

/-! ## ROTATE -/

/-- The quarter turns of an angle are those of `deg mod 360` (R104). -/
theorem quarterTurns_eq_some_iff (deg : Int) (k : Fin 4) : quarterTurns deg = some k ↔ deg % 360 = 90 * k.val := by
  unfold quarterTurns
  split
  · simp only [Option.some.injEq, Fin.ext_iff]
    omega
  · next hangle => exact iff_of_false nofun fun h => hangle (by omega)

theorem exists_quarterTurns {deg : Int} (hdeg : deg % 90 = 0) : ∃ k, quarterTurns deg = some k :=
  Option.ne_none_iff_exists'.1 fun hnone => (quarterTurns_eq_none_iff deg).1 hnone hdeg

/-- The turns of a sum of angles add (R104). -/
theorem quarterTurns_add {d e : Int} {j k : Fin 4} (hj : quarterTurns d = some j) (hk : quarterTurns e = some k) :
    quarterTurns (d + e) = some (j + k) := by
  rw [quarterTurns_eq_some_iff] at *
  rw [Fin.val_add]
  omega

section
variable {s : State} (hready : Ready s)
include hready

theorem exec_rotate_turns {deg : Int} {k : Fin 4} (hturns : quarterTurns deg = some k) :
    exec (.rotate deg) s = .next (mutate (rotated k s.fb) s) :=
  (command_ready _ hready).trans (by simp only [hturns])

theorem exec_rotate_faults {deg : Int} (hturns : quarterTurns deg = none) :
    exec (.rotate deg) s = .next (raiseFault .angle s) :=
  (command_ready _ hready).trans (by simp only [hturns])

end

/-- Settles O32: an angle with quarter turns draws the turned frame, in its closed form, and any other is the fault. -/
theorem rotateTurnsOrFaults : Obligations.RotateTurnsOrFaults := by
  intro s deg hready
  refine ⟨fun hdeg => ?_, fun hdeg => exec_rotate_faults hready ((quarterTurns_eq_none_iff deg).2 hdeg)⟩
  obtain ⟨k, hturns⟩ := exists_quarterTurns hdeg
  refine ⟨_, exec_rotate_turns hready hturns, mutate_emittedOnce _ s, mutate_onlyDisplay _ s, fun x y => ?_⟩
  rw [mutate_fb, (quarterTurns_eq_some_iff deg k).1 hturns]
  match k with
  | 0 => rfl
  | 1 => exact cellAt_rotated_one s.fb x y
  | 2 => exact cellAt_rotated_two s.fb x y
  | 3 => exact cellAt_rotated_three s.fb x y

/-! ## SETORIENT -/

/-- The turns from one orientation to another, as a number (R106). -/
theorem reframeTurns_val (old new : Orientation) :
    (reframeTurns old new).val = (4 - new.code.toNat + old.code.toNat) % 4 :=
  BitVec.toNat_sub old.code new.code

/-- Turning by `old - new` keeps every logical cell: ρ to the `old - new` after ρ to the `new` is ρ to the `old`
(R107). -/
theorem cell_rotated_reframeTurns (old new : Orientation) (b : Frame) (x y : Fin 8) :
    cell (rotated (reframeTurns old new) b) (idx new x y) = cell b (idx old x y) := by
  have hsum : (reframeTurns old new).val + new.code.toNat = old.code.toNat ∨
      (reframeTurns old new).val + new.code.toNat = old.code.toNat + 4 := by
    rw [reframeTurns_val]
    omega
  rw [cell_idx, cellAtPlace_rotated, ← Function.iterate_add_apply, cell_idx]
  rcases hsum with hsum | hsum
  · rw [hsum]
  · rw [hsum, Function.iterate_add_apply, isPeriodicPt_turnedFrom]

theorem EmittedOnce.of_orient {s t : State} {o : Orientation} (h : EmittedOnce { s with orient := o } t) :
    EmittedOnce s t :=
  ⟨h.frames, h.region_none, h.region_image, h.region_above, h.received_none, h.received_frame⟩

/-- Settles O33: the frame drawn is turned by `old - new`. -/
theorem setorientPreservesLogicalCells : Obligations.SetorientPreservesLogicalCells := by
  intro s o hready
  refine ⟨_, command_ready _ hready, rfl, cell_rotated_reframeTurns s.orient o s.fb,
    ⟨reframeTurns s.orient o, ?_, rfl⟩, (mutate_emittedOnce _ { s with orient := o }).of_orient,
    mutate_onlyDisplay _ { s with orient := o }⟩
  rw [reframeTurns_val]
  omega

/-! ## Runs of ROTATE -/

/-- Several ROTATEs turn the buffer as one by the sum of their angles does (R108). -/
theorem execAll_rotate_sum {degs : List Int} (hdegs : ∀ d ∈ degs, d % 90 = 0) : ∀ {s : State}, Ready s →
    ∃ t k, execAll (degs.map .rotate) s = .next t ∧ quarterTurns degs.sum = some k ∧ t.fb = rotated k s.fb := by
  induction degs with
  | nil => exact fun _ => ⟨_, 0, rfl, rfl, rfl⟩
  | cons d ds ih =>
    intro s hready
    obtain ⟨j, hj⟩ := exists_quarterTurns (hdegs d List.mem_cons_self)
    have hready' : Ready (mutate (rotated j s.fb) s) := hready
    obtain ⟨t, k, hexec, hk, hfb⟩ := ih (fun e he => hdegs e (List.mem_cons_of_mem d he)) hready'
    refine ⟨t, k + j, (execAll_cons _ (exec_rotate_turns hready hj)).trans hexec, ?_, ?_⟩
    · rw [List.sum_cons, Int.add_comm]
      exact quarterTurns_add hk hj
    · rw [hfb, mutate_fb, rotated_rotated]

/-- ROTATEs that make up full turns restore the buffer (R108). -/
theorem execAll_rotate_full_turns {s : State} (hready : Ready s) (degs : List Int) (hdegs : ∀ d ∈ degs, d % 90 = 0)
    (hsum : degs.sum % 360 = 0) : ∃ t, execAll (degs.map .rotate) s = .next t ∧ t.fb = s.fb := by
  obtain ⟨t, k, hexec, hk, hfb⟩ := execAll_rotate_sum hdegs hready
  cases ((quarterTurns_eq_some_iff degs.sum 0).2 hsum).symm.trans hk
  exact ⟨t, hexec, hfb⟩

/-- A primitive applied twice reads every cell at its own place (R103, R108). -/
theorem primitives_self_inverse (b : Frame) :
    transposed (transposed b) = b ∧ reflectedV (reflectedV b) = b ∧ reflectedH (reflectedH b) = b := by
  refine ⟨frame_ext_native fun x y => ?_, frame_ext_native fun x y => ?_, frame_ext_native fun x y => ?_⟩
  · rw [cellAt_transposed, cellAt_transposed]
  · rw [cellAt_reflectedV, cellAt_reflectedV, mirror_mirror]
  · rw [cellAt_reflectedH, cellAt_reflectedH, mirror_mirror]

/-- Settles O34: rotations add, so each of the runs is a number of full turns. -/
theorem transformAlgebra : Obligations.TransformAlgebra := by
  refine ⟨primitives_self_inverse, rotated_rotated, fun s deg hready hdeg => ?_, fun s hready => ⟨?_, ?_⟩,
    fun _ => ⟨rfl, rfl, rfl⟩⟩
  · have hdvd : 90 ∣ deg := Int.dvd_of_emod_eq_zero hdeg
    exact execAll_rotate_full_turns hready [deg, -deg] (by simp [hdvd]) (by simp)
  · exact execAll_rotate_full_turns hready (List.replicate 20 [90, -90]).flatten (by decide) (by decide)
  · exact execAll_rotate_full_turns hready (List.replicate 40 90) (by decide) (by decide)

end Sys2Proof.Machine
end

section
/-! PROOF. The font: the lookup, SHOWCHAR's cells, and the glyph and the blanks that the spec fixes. -/

namespace Sys2Proof.Machine

/-! ## The lookup (R117) -/

/-- No codepoint lies in two ranges (R115). -/
theorem font_range_unique {cp : Codepoint} {j k : Fin 7} (hj : Config.font.lo j ≤ cp ∧ cp ≤ Config.font.hi j)
    (hk : Config.font.lo k ≤ cp ∧ cp ≤ Config.font.hi k) : j = k := by
  by_contra hne
  rcases Config.font.disjoint j k hne with hbelow | hbelow
  · exact absurd (BitVec.le_trans hk.1 hj.2) (BitVec.not_le.2 hbelow)
  · exact absurd (BitVec.le_trans hj.1 hk.2) (BitVec.not_le.2 hbelow)

theorem tableOf_eq_none_iff (cp : Codepoint) :
    tableOf cp = none ↔ ∀ j, ¬ (Config.font.lo j ≤ cp ∧ cp ≤ Config.font.hi j) := by
  simp [tableOf]

theorem tableOf_eq_some_iff (cp : Codepoint) (j : Fin 7) :
    tableOf cp = some j ↔ Config.font.lo j ≤ cp ∧ cp ≤ Config.font.hi j := by
  have hfound : ∀ k, tableOf cp = some k → Config.font.lo k ≤ cp ∧ cp ≤ Config.font.hi k := fun k h => by
    simpa using List.find?_some h
  refine ⟨hfound j, fun hj => ?_⟩
  cases htable : tableOf cp with
  | none => exact absurd hj ((tableOf_eq_none_iff cp).1 htable j)
  | some k => rw [font_range_unique (hfound k htable) hj]

/-- The values that are no scalar are the surrogates and those above 0x10FFFF (R12). -/
theorem isScalar_eq_false_iff (cp : Codepoint) :
    isScalar cp = false ↔ (0xD800 ≤ cp ∧ cp ≤ 0xDFFF) ∨ 0x10FFFF < cp := by
  simp only [isScalar, Bool.or_eq_false_iff, Bool.and_eq_false_iff, decide_eq_false_iff_not]
  bv_omega

/-- U+0401 and the values that are no scalar are in no range (R115). -/
theorem tableOf_unmapped {cp : Codepoint} (h : cp = 0x0401 ∨ isScalar cp = false) : tableOf cp = none := by
  refine (tableOf_eq_none_iff cp).2 fun j hj => ?_
  rcases h with rfl | hscalar
  · exact Config.font.io_not_mem j hj
  · have hrange := Config.font.scalar j
    rw [isScalar_eq_false_iff] at hscalar
    bv_omega

/-- The model's early cases are what the table of ranges answers, so the lookup is R117's for every codepoint. -/
theorem glyphRows_eq_lookup (cp : Codepoint) : glyphRows cp = (tableOf cp).map fun j => Config.font.rom j cp := by
  unfold glyphRows
  split_ifs with hbox hunmapped
  · rw [hbox, (tableOf_eq_some_iff _ 3).2 Config.font.box_mem, Option.map_some, Config.font.box_rows]
  · rw [tableOf_unmapped hunmapped, Option.map_none]
  · cases tableOf cp <;> rfl

/-- Settles O35: the lookup is that of the one range that holds the codepoint. -/
theorem glyphLookup : Obligations.GlyphLookup := by
  intro cp
  refine ⟨fun j hlo hhi => ?_, fun hnone => ?_⟩
  · rw [glyphRows_eq_lookup, (tableOf_eq_some_iff cp j).2 ⟨hlo, hhi⟩, Option.map_some]
  · rw [glyphRows_eq_lookup, (tableOf_eq_none_iff cp).2 hnone, Option.map_none]

/-! ## SHOWCHAR (R118, R119) -/

/-- The frame that SHOWCHAR draws. -/
def glyphFrame (cp : Codepoint) (s : State) : Frame :=
  buildLogical s.orient fun x y => blobCell (raster cp s.fg s.bg) x y

theorem exec_showchar {s : State} (hready : Ready s) (cp : Codepoint) :
    exec (.showchar cp) s = .next (mutate (glyphFrame cp s) s) :=
  command_ready _ hready

theorem cell_glyphFrame_idx (cp : Codepoint) (s : State) (x y : Fin 8) :
    cell (glyphFrame cp s) (idx s.orient x y) = rasterCell cp s.fg s.bg x y := by
  rw [glyphFrame, buildLogical_idx, raster_cell]

theorem cell_glyphFrame (cp : Codepoint) (s : State) (i : Fin 64) :
    cell (glyphFrame cp s) i = rasterCell cp s.fg s.bg (logicalOf s.orient i).1 (logicalOf s.orient i).2 := by
  rw [← cell_glyphFrame_idx, idx_logicalOf]

/-- Settles O36: the frame's logical cells are those of the rasterized glyph. -/
theorem showcharPlacesTheGlyph : Obligations.ShowcharPlacesTheGlyph := by
  intro s cp hready
  exact ⟨_, exec_showchar hready cp, mutate_emittedOnce _ s, mutate_onlyDisplay _ s, cell_glyphFrame_idx cp s⟩

/-! ## U+2598 (R116, R120) -/

/-- The rows of the glyph set the top left quadrant's bits. -/
theorem boxTopLeft_bit : ∀ x y : Fin 8, Config.boxTopLeft[y.val].getLsbD x.val = decide (x.val < 4 ∧ y.val < 4) := by
  decide

theorem rasterCell_box (fg bg : Colour) (x y : Fin 8) :
    rasterCell 0x2598 fg bg x y = if x.val < 4 ∧ y.val < 4 then fg else bg := by
  have hglyph : glyphRows 0x2598 = some Config.boxTopLeft := if_pos rfl
  simp only [rasterCell, hglyph, boxTopLeft_bit, decide_eq_true_eq]

theorem mirror_val_lt_four_iff (x : Fin 8) : (mirror x).val < 4 ↔ 4 ≤ x.val := by
  simp only [mirror]
  omega

/-- Settles O37: each orientation's inverse mux takes its quadrant to the logical top left one. -/
theorem boxGlyphQuadrants : Obligations.BoxGlyphQuadrants := by
  intro s hready
  refine ⟨_, exec_showchar hready 0x2598, fun x y => ?_⟩
  rw [mutate_fb, cellAt, cell_glyphFrame, rasterCell_box]
  cases s.orient <;>
    simp only [logicalOf, colOf_cellIdx, rowOf_cellIdx, mirror_val_lt_four_iff, decide_eq_true_eq, and_comm]

/-! ## Blanks (R119, R121) -/

theorem rasterCell_unmapped {cp : Codepoint} (h : cp = 0x0401 ∨ isScalar cp = false) (fg bg : Colour) (x y : Fin 8) :
    rasterCell cp fg bg x y = bg := by
  have hglyph : glyphRows cp = none := by rw [glyphRows_eq_lookup, tableOf_unmapped h, Option.map_none]
  simp only [rasterCell, hglyph]

/-- Settles O38: a codepoint in no range has no glyph, so every cell is background. -/
theorem unmappedIsBlank : Obligations.UnmappedIsBlank := by
  intro s cp hready hcp
  rw [← isScalar_eq_false_iff] at hcp
  exact ⟨_, exec_showchar hready cp, fun j => (cell_glyphFrame cp s j).trans (rasterCell_unmapped hcp s.fg s.bg _ _)⟩

end Sys2Proof.Machine
end

section
/-! PROOF. A write to STR. -/

namespace Sys2Proof.Machine

/-- Bits [31:21] of a word are zero exactly if the word fits the codepoint field. -/
theorem high_bits_eq_zero_iff_codepoint (v : Word) : v.extractLsb' 21 11 = 0 ↔ v.toNat / 2 ^ 21 = 0 := by
  have hv := v.isLt
  rw [← BitVec.toNat_inj, BitVec.extractLsb'_toNat, Nat.shiftRight_eq_div_pow, BitVec.ofNat_eq_ofNat,
    BitVec.toNat_ofNat, Nat.zero_mod]
  omega

/-- Bits [20:0] of a word, as a number. -/
theorem extractLsb'_codepoint (v : Word) : v.extractLsb' 0 21 = BitVec.ofNat 21 v.toNat := by
  apply BitVec.eq_of_toNat_eq
  simp

theorem writeStr_busy {s : State} (v : Word) (hbusy : s.busy = true) : writeStr v s = { s with err := .busy } :=
  if_pos hbusy

section
variable {s : State} {v : Word} (hready : Ready s)
include hready

theorem writeStr_illegal (hhigh : v.toNat / 2 ^ 21 ≠ 0) : writeStr v s = { s with err := .illegal } := by
  rw [writeStr, if_neg (Bool.eq_false_iff.1 hready.busy), if_pos (mt (high_bits_eq_zero_iff_codepoint v).1 hhigh)]
  rfl

variable (hlow : v.toNat / 2 ^ 21 = 0)
include hlow

/-- A codepoint written to STR goes to the string buffer, which may be full (R129). -/
theorem writeStr_codepoint : writeStr v s = pushCodepoint (BitVec.ofNat 21 v.toNat) s := by
  rw [writeStr, if_neg (Bool.eq_false_iff.1 hready.busy),
    if_neg (not_not_intro ((high_bits_eq_zero_iff_codepoint v).2 hlow)), extractLsb'_codepoint]

theorem writeStr_overflow (hfull : s.strlen = s.strcap) : writeStr v s = { s with err := .strovf } := by
  rw [writeStr_codepoint hready hlow, pushCodepoint_full _ hfull]

theorem writeStr_append (hroom : s.strlen ≠ s.strcap) : writeStr v s =
    { s with strbuf := s.strbuf.set s.strlen (BitVec.ofNat 21 v.toNat), strlen := s.strlen + 1 } := by
  rw [writeStr_codepoint hready hlow, pushCodepoint_of_ne _ hroom]

end

/-- STRLEN is below the number of entries exactly where the string buffer is not full (R24). -/
theorem Inv.strlen_lt_entries {s : State} (hinv : Inv s) (hroom : s.strlen ≠ s.strcap) :
    s.strlen < s.strbuf.length := by
  rw [hinv.string_entries]
  exact lt_of_le_of_ne hinv.string_fits hroom

/-- Settles O14: outside the fault state the step is the write to STR, case by case. -/
theorem strWriteAppends : Obligations.StrWriteAppends := by
  intro s a v rest ha hin
  by_cases hfault : s.fault = true
  · have hnever : ∀ {P : Prop}, s.fault = false → P := fun h => nomatch hfault.symm.trans h
    exact ⟨_, step_write_fault hin hfault, fun _ => rfl, hnever, fun h => hnever h.1, fun h => hnever h.1,
      fun h => hnever h.1⟩
  · have hrun : Ready s → Ready { s with inputs := rest } := id
    refine ⟨_, step_write_str hin (Bool.eq_false_of_not_eq_true hfault) (portReg_str ha), fun h => absurd h hfault,
      fun _ hbusy => writeStr_busy v hbusy, fun hready hhigh => writeStr_illegal (hrun hready) hhigh,
      fun hready hlow hfull => writeStr_overflow (hrun hready) hlow hfull, fun hready hlow hroom => ?_⟩
    rw [writeStr_append (hrun hready) hlow hroom]
    exact ⟨rfl, fun hinv => ⟨strAt_set_self _ _ (hinv.strlen_lt_entries hroom), fun k => strAt_set_other _ _⟩⟩

end Sys2Proof.Machine
end

section
/-! PROOF. The shift commands. -/

namespace Sys2Proof.Machine

/-- The cells of a frame into which a column was shifted (R123). -/
theorem cells_shiftIn (o : Orientation) (col : Fin 8 → Colour) (b : Frame) (y : Fin 8) :
    cell (shiftIn o col b) (idx o 7 y) = col y ∧
    ∀ (x : Fin 8) (h : x.val < 7), cell (shiftIn o col b) (idx o x y) = cell b (idx o ⟨x.val + 1, by omega⟩ y) :=
  ⟨shiftIn_last o col b y, fun x h => shiftIn_left o col b x y h⟩

/-! ## Columns shifted in one after another -/

/-- The first `n` columns of `cells` have been shifted in: they are the last `n` logical columns of `b`, in order
(R123). -/
def ShiftedIn (o : Orientation) (n : Nat) (cells : Fin 8 → Fin 8 → Colour) (b : Frame) : Prop :=
  ∀ x k y : Fin 8, x.val + n = k.val + 8 → cell b (idx o x y) = cells k y

theorem shiftedIn_zero (o : Orientation) (cells : Fin 8 → Fin 8 → Colour) (b : Frame) : ShiftedIn o 0 cells b := by
  intro x k y hx
  omega

/-- The next column enters at the right, and those before it move on (R123). -/
theorem ShiftedIn.shiftIn {o : Orientation} {cells : Fin 8 → Fin 8 → Colour} {b : Frame} {c : Fin 8}
    (h : ShiftedIn o c.val cells b) : ShiftedIn o (c.val + 1) cells (shiftIn o (cells c) b) := by
  intro x k y hx
  by_cases hlast : x.val < 7
  · rw [shiftIn_left o _ b x y hlast]
    exact h ⟨x.val + 1, by omega⟩ k y (by simp only; omega)
  · have hx7 : x = 7 := Fin.ext (show x.val = 7 by omega)
    have hk : k = c := Fin.ext (by omega)
    rw [hx7, hk]
    exact shiftIn_last o _ b y

/-- Eight columns shifted in are the whole frame. -/
theorem ShiftedIn.cell_eq {o : Orientation} {cells : Fin 8 → Fin 8 → Colour} {b : Frame} (h : ShiftedIn o 8 cells b)
    (x y : Fin 8) : cell b (idx o x y) = cells x y :=
  h x x y rfl

/-! ## SHIFTC and SHIFTS -/

section
variable {s : State} (hready : Ready s)
include hready

theorem exec_shiftc (c : Colour) : exec (.shiftc c) s = .next (mutate (shiftIn s.orient (fun _ => c) s.fb) s) :=
  command_ready _ hready

/-- SHIFTS with 8 pixels and none dropped (R126). -/
theorem exec_shifts_full (hcount : s.scnt.val = 8 ∧ s.sovf = false) :
    exec .shifts s = .next
      (mutate (shiftIn s.orient (fun y => cell s.stage ⟨y.val, by omega⟩) s.fb) (clearStage s)) :=
  (command_ready _ hready).trans (congrArg _ (commitStage_full s _ hcount))

/-- SHIFTS with another count (R126, R147). -/
theorem exec_shifts_length (hcount : ¬ (s.scnt.val = 8 ∧ s.sovf = false)) :
    exec .shifts s = .next { s with scnt := 0, sovf := false, err := .length } :=
  (command_ready _ hready).trans (congrArg _ (commitStage_length s _ hcount))

end

/-- Settles O39: the body shifts in a column of one colour. -/
theorem shiftcShiftsLeft : Obligations.ShiftcShiftsLeft := by
  intro s c hready
  refine ⟨_, exec_shiftc hready c, mutate_emittedOnce _ s, mutate_onlyDisplay _ s, fun y => ?_⟩
  rw [mutate_fb]
  exact cells_shiftIn s.orient _ s.fb y

/-- Settles O40: the body shifts in the staged column, the staging buffer emptied before. -/
theorem shiftsShiftsTheStagedColumn : Obligations.ShiftsShiftsTheStagedColumn := by
  intro s hready
  refine ⟨fun hcount => ⟨_, exec_shifts_full hready hcount, rfl, rfl, ?_, mutate_onlyDisplay _ (clearStage s),
    fun y => ?_⟩, exec_shifts_length hready⟩
  · exact (mutate_emittedOnce _ (clearStage s)).of_clearStage
  · rw [mutate_fb]
    exact cells_shiftIn s.orient _ s.fb y

/-! ## Runs of SHIFTC -/

theorem Ready.mutate {s : State} (hready : Ready s) (b : Frame) : Ready (mutate b s) := hready

/-- One SHIFTC leaves the block ready, and one more column of its colour is in (R125). -/
theorem exec_shiftc_shiftedIn {s : State} (hready : Ready s) {c : Colour} {m : Nat} (hm : m < 8)
    (hin : ShiftedIn s.orient m (fun _ _ => c) s.fb) :
    ∃ t, exec (.shiftc c) s = .next t ∧ Ready t ∧ ShiftedIn t.orient (m + 1) (fun _ _ => c) t.fb := by
  refine ⟨_, exec_shiftc hready c, hready.mutate _, ?_⟩
  rw [mutate_orient, mutate_fb]
  exact hin.shiftIn (c := ⟨m, hm⟩)

/-- Where `m` columns of a colour are in already, `n` times SHIFTC makes them `m + n` (R125). -/
theorem execAll_shiftc (c : Colour) (n : Nat) : ∀ {m : Nat} {s : State}, m + n ≤ 8 → Ready s →
    ShiftedIn s.orient m (fun _ _ => c) s.fb →
    ∃ t, execAll (List.replicate n (.shiftc c)) s = .next t ∧ ShiftedIn t.orient (m + n) (fun _ _ => c) t.fb := by
  induction n with
  | zero => exact fun _ _ hin => ⟨_, rfl, hin⟩
  | succ n ih =>
    intro m s hm hready hin
    obtain ⟨t, hexec, hready', hin'⟩ := exec_shiftc_shiftedIn hready (by omega) hin
    rw [List.replicate_succ, execAll_cons _ hexec, ← Nat.add_assoc, Nat.add_right_comm]
    exact ih (by omega) hready' hin'

/-- Settles O41: whatever the buffer was, eight black columns fill it. -/
theorem shiftTestRestores : Obligations.ShiftTestRestores := by
  intro s hready _
  obtain ⟨t, hred, hready', -⟩ := exec_shiftc_shiftedIn hready (by omega) (shiftedIn_zero s.orient _ s.fb)
  obtain ⟨u, hblack, hin⟩ := execAll_shiftc 0x0000 8 (by omega) hready' (shiftedIn_zero t.orient _ t.fb)
  refine ⟨u, (execAll_cons _ hred).trans hblack, fun j => ?_⟩
  obtain ⟨x, y, rfl⟩ := exists_idx u.orient j
  exact hin.cell_eq x y

end Sys2Proof.Machine
end

section
/-! PROOF. The host's accesses while a scroll runs. -/

namespace Sys2Proof.Machine

/-! ## What a host access may change during a scroll -/

/-- The fields that a host access may change while a scroll runs (R140). -/
structure HostSide where
  fg : Colour
  bg : Colour
  delay : Word
  err : ErrCode
  replies : List Word
  inputs : List Input

/-- The values of these fields in a state. -/
def State.hostSide (s : State) : HostSide := ⟨s.fg, s.bg, s.delay, s.err, s.replies, s.inputs⟩

/-- The state with other values of these fields. -/
def State.withHostSide (s : State) (h : HostSide) : State :=
  { s with fg := h.fg, bg := h.bg, delay := h.delay, err := h.err, replies := h.replies, inputs := h.inputs }

section
variable (s : State) (h : HostSide)

@[simp] theorem withHostSide_strlen : (s.withHostSide h).strlen = s.strlen := rfl
@[simp] theorem withHostSide_seq : (s.withHostSide h).seq = s.seq := rfl

/-! ## A tick does not see these fields (R140) -/

theorem loadGlyph_withHostSide : loadGlyph (s.withHostSide h) = (loadGlyph s).withHostSide h := by
  unfold loadGlyph
  by_cases hc : s.seq.c = 0
  · rw [if_pos hc, if_pos (by rwa [withHostSide_seq])]
    rfl
  · rw [if_neg hc, if_neg (by rwa [withHostSide_seq])]

theorem columnStep_withHostSide : columnStep (s.withHostSide h) = (columnStep s).withHostSide h := rfl

theorem advanceScroll_withHostSide : advanceScroll (s.withHostSide h) = (advanceScroll s).withHostSide h := by
  unfold advanceScroll
  by_cases hc : s.seq.c.val < 7
  · rw [dif_pos hc, dif_pos (by rwa [withHostSide_seq])]
    rfl
  · rw [dif_neg hc, dif_neg (by rwa [withHostSide_seq])]
    by_cases hi : s.seq.i + 1 < s.strlen
    · rw [if_pos hi, if_pos (by rwa [withHostSide_seq, withHostSide_strlen])]
      rfl
    · rw [if_neg hi, if_neg (by rwa [withHostSide_seq, withHostSide_strlen])]
      rfl

theorem afterColumn_withHostSide : afterColumn (s.withHostSide h) = (afterColumn s).withHostSide h := by
  by_cases hdelay : s.seq.dL = 0
  · rw [afterColumn_advance hdelay, afterColumn_advance (by rwa [withHostSide_seq]), advanceScroll_withHostSide]
  · rw [afterColumn_wait hdelay, afterColumn_wait (by rwa [withHostSide_seq])]
    rfl

theorem waitTick_withHostSide : waitTick (s.withHostSide h) = (waitTick s).withHostSide h := by
  by_cases hlast : s.seq.w = 1
  · rw [waitTick_last hlast, waitTick_last (by rwa [withHostSide_seq]), ← advanceScroll_withHostSide]
    rfl
  · rw [waitTick_count hlast, waitTick_count (by rwa [withHostSide_seq])]
    rfl

theorem tick_withHostSide : tick (s.withHostSide h) = (tick s).withHostSide h := by
  cases hphase : s.seq.phase with
  | idle => rw [tick_idle hphase, tick_idle (by rwa [withHostSide_seq])]
  | wait => rw [tick_wait hphase, tick_wait (by rwa [withHostSide_seq]), waitTick_withHostSide]
  | step =>
    rw [tick_step hphase, tick_step (by rwa [withHostSide_seq]), loadGlyph_withHostSide, columnStep_withHostSide,
      afterColumn_withHostSide]

end

/-! ## Accesses while a scroll runs -/

section
variable {s : State} {a : PortAddr} {v : Word} {rest : List Input} (hfault : s.fault = false) (hbusy : s.busy = true)
include hfault hbusy

theorem writeCmd_busy (w : Word) : writeCmd w s = .next { s with err := .busy } := by
  rcases writeCmd_cases w s with ⟨i, -, hrun⟩ | ⟨-, -, hrun⟩
  · obtain ⟨body, hexec, -⟩ := exec_eq_command i
    rw [hrun, hexec, command_busy body hfault hbusy]
  · rw [hrun, command_busy _ hfault hbusy]

/-- A write to CMD, STR or DATA raises BUSY and has no other effect (R140). -/
theorem step_write_busy (hin : s.inputs = .portWrite a v :: rest)
    (hreg : portReg a = .cmd ∨ portReg a = .str ∨ portReg a = .data) :
    step s = .next { s with inputs := rest, err := .busy } := by
  rcases hreg with hcmd | hstr | hdata
  · rw [step_write_cmd hin hfault hcmd]
    exact writeCmd_busy (s := { s with inputs := rest }) hfault hbusy v
  · rw [step_write_str hin hfault hstr]
    exact congrArg _ (writeStr_busy v hbusy)
  · rw [step_write_data hin hfault hdata]
    exact congrArg _ (writeData_busy v hbusy)

end

/-- Settles O13: the writes register by register, and the fields that a tick does not see. -/
theorem accessesDuringAScroll : Obligations.AccessesDuringAScroll := by
  intro s a v rest hfault hbusy
  refine ⟨fun hin => ⟨step_write_busy hfault hbusy hin, step_write_fg hin hfault, step_write_bg hin hfault,
    step_write_delay hin hfault⟩, fun hin => step_input hin, fun fg bg delay err replies inputs => ?_⟩
  exact tick_withHostSide s ⟨fg, bg, delay, err, replies, inputs⟩

end Sys2Proof.Machine
end

section
/-! PROOF. How long a scroll runs. -/

namespace Sys2Proof.Machine

/-! ## Ticks one after another -/

/-- What every tick keeps, a run of ticks keeps. -/
theorem ticks_keeps {P : State → Prop} (hkeeps : ∀ s, P s → P (tick s)) (m : Nat) :
    ∀ {s : State}, P s → P (ticks m s) := by
  induction m with
  | zero => exact id
  | succ m ih => exact fun hs => ih (hkeeps _ hs)

/-! ## The place of a scroll -/

/-- A running scroll is at a character of the string, and a waiting one has a tick of its delay left: what the timing
needs of `Inv` (R29, R133, R134). -/
structure SeqInRange (s : State) : Prop where
  index : s.seq.phase ≠ .idle → s.seq.i < s.strlen
  wait : s.seq.phase = .wait → 0 < s.seq.w.toNat ∧ s.seq.w.toNat ≤ s.seq.dL.toNat

theorem Inv.seqInRange {s : State} (hinv : Inv s) : SeqInRange s := by
  refine ⟨hinv.scroll_index, fun hwait => ?_⟩
  obtain ⟨hpos, hle⟩ := hinv.wait_count hwait
  exact ⟨BitVec.lt_def.1 hpos, BitVec.le_def.1 hle⟩

/-- The column steps still to come. In phase WAIT column `c` has been shifted in (R133, R134). -/
def columnsLeft (s : State) : Nat :=
  match s.seq.phase with
  | .idle => 0
  | .step => 8 * (s.strlen - s.seq.i) - s.seq.c.val
  | .wait => 8 * (s.strlen - s.seq.i) - (s.seq.c.val + 1)

/-- The ticks of the present delay still to come (R133). -/
def delayLeft (s : State) : Nat :=
  match s.seq.phase with
  | .idle | .step => 0
  | .wait => s.seq.w.toNat

/-- The ticks of the scroll still to come: each column step takes one, and the delay after it (R136). -/
def ticksLeft (s : State) : Nat := columnsLeft s * (s.seq.dL.toNat + 1) + delayLeft s

section
variable {s : State}

theorem columnsLeft_idle (h : s.seq.phase = .idle) : columnsLeft s = 0 := by simp only [columnsLeft, h]

theorem columnsLeft_step (h : s.seq.phase = .step) :
    columnsLeft s = 8 * (s.strlen - s.seq.i) - s.seq.c.val := by simp only [columnsLeft, h]

theorem columnsLeft_wait (h : s.seq.phase = .wait) :
    columnsLeft s = 8 * (s.strlen - s.seq.i) - (s.seq.c.val + 1) := by simp only [columnsLeft, h]

theorem delayLeft_idle (h : s.seq.phase = .idle) : delayLeft s = 0 := by simp only [delayLeft, h]

theorem delayLeft_step (h : s.seq.phase = .step) : delayLeft s = 0 := by simp only [delayLeft, h]

theorem delayLeft_wait (h : s.seq.phase = .wait) : delayLeft s = s.seq.w.toNat := by simp only [delayLeft, h]

end

/-- Advancing leads to a column step or to the end, one column further in the string (R134). -/
theorem Advanced.columnsLeft_eq {s t : State} (hadv : Advanced s t) (hindex : s.seq.i < s.strlen) :
    SeqInRange t ∧ columnsLeft t = 8 * (s.strlen - s.seq.i) - (s.seq.c.val + 1) ∧ delayLeft t = 0 := by
  obtain ⟨hcolumn, hcharacter, hcomplete⟩ := hadv
  have hc := s.seq.c.isLt
  by_cases hc7 : s.seq.c.val < 7
  · obtain ⟨hphase, hc', hi', hlen'⟩ := hcolumn hc7
    refine ⟨⟨fun _ => by omega, by simp [hphase]⟩, ?_, delayLeft_step hphase⟩
    rw [columnsLeft_step hphase]
    omega
  · by_cases hnext : s.seq.i + 1 < s.strlen
    · obtain ⟨hphase, hc', hi', hlen'⟩ := hcharacter (by omega) hnext
      refine ⟨⟨fun _ => by omega, by simp [hphase]⟩, ?_, delayLeft_step hphase⟩
      rw [columnsLeft_step hphase]
      omega
    · obtain ⟨hphase, -, -⟩ := hcomplete (by omega) (by omega)
      refine ⟨⟨fun hbusy => absurd hphase hbusy, by simp [hphase]⟩, ?_, delayLeft_idle hphase⟩
      rw [columnsLeft_idle hphase]
      omega

/-- `t` waits at the column where `s` is (R133). -/
structure WaitsAt (s t : State) : Prop where
  phase : t.seq.phase = .wait
  c : t.seq.c = s.seq.c
  i : t.seq.i = s.seq.i
  strlen : t.strlen = s.strlen

/-- The ticks of delay that are left after a tick: a column step sets them, and a tick in phase WAIT counts one down
(R133). -/
def delayAfterTick (s : State) : Nat := if s.seq.phase = .step then s.seq.dL.toNat else s.seq.w.toNat - 1

/-- A tick of a running scroll advances where no delay is left, and otherwise waits (R133). -/
theorem tick_advanced_or_waits {s : State} (hrange : SeqInRange s) (hbusy : s.seq.phase ≠ .idle) :
    (delayAfterTick s = 0 ∧ Advanced s (tick s)) ∨
    (delayAfterTick s ≠ 0 ∧ WaitsAt s (tick s) ∧ (tick s).seq.w.toNat = delayAfterTick s) := by
  cases hphase : s.seq.phase with
  | idle => exact absurd hphase hbusy
  | step =>
    rw [delayAfterTick, if_pos hphase]
    by_cases hdelay : s.seq.dL = 0
    · exact .inl ⟨by rw [hdelay]; rfl, tick_step_advanced hphase hdelay⟩
    · obtain ⟨hseq, hlen⟩ := tick_step_wait hphase hdelay
      rw [loadGlyph_seq] at hseq
      have hwaits : WaitsAt s (tick s) := ⟨by rw [hseq], by rw [hseq], by rw [hseq], hlen⟩
      exact .inr ⟨fun hzero => hdelay (BitVec.eq_of_toNat_eq hzero), hwaits, by rw [hseq]⟩
  | wait =>
    rw [delayAfterTick, if_neg (by simp [hphase])]
    have hpos := (hrange.wait hphase).1
    obtain ⟨-, -, hlast, hcount⟩ := tick_wait_effect hphase
    by_cases hw1 : s.seq.w = 1
    · exact .inl ⟨by rw [hw1]; rfl, hlast hw1⟩
    · obtain ⟨hphase', hw, hc, hi, hlen⟩ := hcount hw1
      have hne : s.seq.w.toNat ≠ 1 := fun hone => hw1 (BitVec.eq_of_toNat_eq hone)
      exact .inr ⟨by omega, ⟨hphase', hc, hi, hlen⟩, by rw [hw]; bv_omega⟩

theorem delayAfterTick_le {s : State} (hrange : SeqInRange s) (hbusy : s.seq.phase ≠ .idle) :
    delayAfterTick s ≤ s.seq.dL.toNat := by
  cases hphase : s.seq.phase with
  | idle => exact absurd hphase hbusy
  | step => rw [delayAfterTick, if_pos hphase]
  | wait =>
    rw [delayAfterTick, if_neg (by simp [hphase])]
    exact (Nat.sub_le _ _).trans (hrange.wait hphase).2

/-- After a tick of a running scroll the columns after `c` are left. -/
theorem tick_columnsLeft {s : State} (hrange : SeqInRange s) (hbusy : s.seq.phase ≠ .idle) :
    SeqInRange (tick s) ∧ columnsLeft (tick s) = 8 * (s.strlen - s.seq.i) - (s.seq.c.val + 1) ∧
    delayLeft (tick s) = delayAfterTick s := by
  have hindex := hrange.index hbusy
  rcases tick_advanced_or_waits hrange hbusy with ⟨hzero, hadv⟩ | ⟨hpos, ⟨hphase, hc, hi, hlen⟩, hw⟩
  · rw [hzero]
    exact hadv.columnsLeft_eq hindex
  · obtain ⟨-, -, hdL⟩ := tick_latched s
    have hle := delayAfterTick_le hrange hbusy
    refine ⟨⟨fun _ => by rwa [hi, hlen], fun _ => by rw [hw, hdL]; omega⟩, ?_, ?_⟩
    · rw [columnsLeft_wait hphase, hc, hi, hlen]
    · rw [delayLeft_wait hphase, hw]

theorem seqInRange_tick {s : State} (hrange : SeqInRange s) : SeqInRange (tick s) := by
  by_cases hidle : s.seq.phase = .idle
  · rwa [tick_idle hidle]
  · exact (tick_columnsLeft hrange hidle).1

theorem seqInRange_ticks (m : Nat) {s : State} (hrange : SeqInRange s) : SeqInRange (ticks m s) :=
  ticks_keeps (P := SeqInRange) (fun _ => seqInRange_tick) m hrange

/-- A column step is left in phase STEP, and a tick in phase WAIT. -/
theorem busy_iff_ticksLeft_pos {s : State} (hrange : SeqInRange s) : s.busy = true ↔ 0 < ticksLeft s := by
  rw [busy_eq_true_iff]
  have hc := s.seq.c.isLt
  cases hphase : s.seq.phase with
  | idle => simp [ticksLeft, columnsLeft_idle hphase, delayLeft_idle hphase]
  | step =>
    have hindex := hrange.index (by simp [hphase])
    have hcolumns : 0 < columnsLeft s := by rw [columnsLeft_step hphase]; omega
    simp [ticksLeft, hcolumns]
  | wait =>
    have hdelay : 0 < delayLeft s := by rw [delayLeft_wait hphase]; exact (hrange.wait hphase).1
    simp [ticksLeft, hdelay]

/-- Every tick of a scroll brings its end one tick nearer. -/
theorem ticksLeft_tick {s : State} (hrange : SeqInRange s) : ticksLeft (tick s) = ticksLeft s - 1 := by
  obtain ⟨-, -, hdL⟩ := tick_latched s
  have hc := s.seq.c.isLt
  cases hphase : s.seq.phase with
  | idle => simp [tick_idle hphase, ticksLeft, columnsLeft_idle hphase, delayLeft_idle hphase]
  | step =>
    obtain ⟨-, hcolumns, hdelay⟩ := tick_columnsLeft hrange (by simp [hphase])
    have hindex := hrange.index (by simp [hphase])
    have hstep : columnsLeft s = columnsLeft (tick s) + 1 := by rw [columnsLeft_step hphase, hcolumns]; omega
    rw [delayAfterTick, if_pos hphase] at hdelay
    rw [ticksLeft, ticksLeft, hstep, hdelay, hdL, delayLeft_step hphase, Nat.succ_mul]
    omega
  | wait =>
    obtain ⟨-, hcolumns, hdelay⟩ := tick_columnsLeft hrange (by simp [hphase])
    rw [delayAfterTick, if_neg (by simp [hphase])] at hdelay
    have hpos := (hrange.wait hphase).1
    rw [ticksLeft, ticksLeft, hcolumns, ← columnsLeft_wait hphase, hdelay, hdL, delayLeft_wait hphase]
    omega

theorem ticksLeft_ticks (m : Nat) : ∀ {s : State}, SeqInRange s → ticksLeft (ticks m s) = ticksLeft s - m := by
  induction m with
  | zero => exact fun _ => rfl
  | succ m ih =>
    intro s hrange
    rw [ticks, ih (seqInRange_tick hrange), ticksLeft_tick hrange]
    omega

/-- After `m` ticks the scroll runs exactly if it had more than `m` to come. -/
theorem busy_ticks_iff {s : State} (hrange : SeqInRange s) (m : Nat) : (ticks m s).busy = true ↔ m < ticksLeft s := by
  rw [busy_iff_ticksLeft_pos (seqInRange_ticks m hrange), ticksLeft_ticks m hrange]
  omega

theorem busy_ticks_ticksLeft {s : State} (hrange : SeqInRange s) : (ticks (ticksLeft s) s).busy = false :=
  Bool.eq_false_of_not_eq_true fun hbusy => absurd ((busy_ticks_iff hrange _).1 hbusy) (lt_irrefl _)

theorem delayLeft_le {s : State} (hrange : SeqInRange s) : delayLeft s ≤ s.seq.dL.toNat := by
  cases hphase : s.seq.phase with
  | idle => simp [delayLeft_idle hphase]
  | step => simp [delayLeft_step hphase]
  | wait => rw [delayLeft_wait hphase]; exact (hrange.wait hphase).2

/-- From any place in a character at most its eight columns and those of the characters after it are left. -/
theorem ticksLeft_le {s : State} (hrange : SeqInRange s) :
    ticksLeft s ≤ 8 * (s.strlen - s.seq.i) * (s.seq.dL.toNat + 1) := by
  have hdelay := delayLeft_le hrange
  cases hphase : s.seq.phase with
  | idle => simp [ticksLeft, columnsLeft_idle hphase, delayLeft_idle hphase]
  | step =>
    rw [ticksLeft, columnsLeft_step hphase, delayLeft_step hphase, Nat.add_zero]
    exact Nat.mul_le_mul_right _ (Nat.sub_le _ _)
  | wait =>
    have hindex := hrange.index (by simp [hphase])
    have hcolumns : columnsLeft s + 1 ≤ 8 * (s.strlen - s.seq.i) := by rw [columnsLeft_wait hphase]; omega
    calc ticksLeft s
        ≤ (columnsLeft s + 1) * (s.seq.dL.toNat + 1) := by rw [ticksLeft, Nat.succ_mul]; omega
      _ ≤ 8 * (s.strlen - s.seq.i) * (s.seq.dL.toNat + 1) := Nat.mul_le_mul_right _ hcolumns

/-- Settles O46: the scroll ends with the last of the ticks that are left. -/
theorem scrollAlwaysEnds : Obligations.ScrollAlwaysEnds := fun s hinv _ =>
  ⟨ticksLeft s, ticksLeft_le hinv.seqInRange, busy_ticks_ticksLeft hinv.seqInRange⟩

end Sys2Proof.Machine
end

section
/-! PROOF. The timing law of a scroll, also with host accesses between its ticks. -/

namespace Sys2Proof.Machine

/-! ## What no tick changes -/

/-- `t` has the orientation, the string's entries, FAULT, the error and the latched values of `s`. -/
structure SameScroll (s t : State) : Prop where
  orient : t.orient = s.orient
  strbuf : t.strbuf = s.strbuf
  fault : t.fault = s.fault
  err : t.err = s.err
  fgL : t.seq.fgL = s.seq.fgL
  bgL : t.seq.bgL = s.seq.bgL
  dL : t.seq.dL = s.seq.dL

theorem SameScroll.refl (s : State) : SameScroll s s := ⟨rfl, rfl, rfl, rfl, rfl, rfl, rfl⟩

theorem SameScroll.trans {s t u : State} (h : SameScroll s t) (h' : SameScroll t u) : SameScroll s u :=
  ⟨h'.orient.trans h.orient, h'.strbuf.trans h.strbuf, h'.fault.trans h.fault, h'.err.trans h.err,
    h'.fgL.trans h.fgL, h'.bgL.trans h.bgL, h'.dL.trans h.dL⟩

/-- A field that is not the display's is the same. -/
theorem OnlyDisplay.field_eq {α : Type} {s t : State} (h : OnlyDisplay s t) (f : State → α)
    (hf : ∀ fb frames region received, f { s with fb, frames, region, received } = f s) : f t = f s := by
  unfold OnlyDisplay at h
  rw [h, hf]

theorem tick_sameScroll (s : State) : SameScroll s (tick s) := by
  have hdisplay := tick_onlyDisplay s
  obtain ⟨hfg, hbg, hdL⟩ := tick_latched s
  exact ⟨tick_orient s, hdisplay.field_eq State.strbuf fun _ _ _ _ => rfl,
    hdisplay.field_eq State.fault fun _ _ _ _ => rfl, hdisplay.field_eq State.err fun _ _ _ _ => rfl, hfg, hbg, hdL⟩

theorem ticks_sameScroll (m : Nat) (s : State) : SameScroll s (ticks m s) :=
  ticks_keeps (P := SameScroll s) (fun _ h => h.trans (tick_sameScroll _)) m (.refl s)

/-! ## The frames of a scroll -/

/-- A tick of phase STEP emits one frame and leaves one column step less to come (R133). -/
theorem frames_add_columnsLeft_tick {s : State} (hrange : SeqInRange s) :
    (tick s).frames.length + columnsLeft (tick s) = s.frames.length + columnsLeft s := by
  rw [tick_frames_eq, List.length_append]
  have hc := s.seq.c.isLt
  cases hphase : s.seq.phase with
  | idle => simp [tick_idle hphase]
  | step =>
    have hindex := hrange.index (by simp [hphase])
    obtain ⟨-, hcolumns, -⟩ := tick_columnsLeft hrange (by simp [hphase])
    rw [hcolumns, columnsLeft_step hphase, if_pos rfl, List.length_singleton]
    omega
  | wait =>
    obtain ⟨-, hcolumns, -⟩ := tick_columnsLeft hrange (by simp [hphase])
    rw [hcolumns, columnsLeft_wait hphase, if_neg nofun, List.length_nil, Nat.add_zero]

theorem frames_add_columnsLeft_ticks (m : Nat) {s : State} (hrange : SeqInRange s) :
    (ticks m s).frames.length + columnsLeft (ticks m s) = s.frames.length + columnsLeft s := by
  refine (ticks_keeps (P := fun t => SeqInRange t ∧
    t.frames.length + columnsLeft t = s.frames.length + columnsLeft s) ?_ m ⟨hrange, rfl⟩).2
  exact fun t ⟨ht, hcount⟩ => ⟨seqInRange_tick ht, (frames_add_columnsLeft_tick ht).trans hcount⟩

/-- The delay that is left is shorter than a column's time, so the ticks left tell the column steps left. -/
theorem columnsLeft_eq_div {s : State} (hrange : SeqInRange s) :
    columnsLeft s = ticksLeft s / (s.seq.dL.toNat + 1) := by
  have hdelay := delayLeft_le hrange
  rw [ticksLeft, Nat.mul_comm, Nat.mul_add_div (by omega), Nat.div_eq_of_lt (by omega), Nat.add_zero]

/-- The frames that `m` ticks emit are the column steps that are no longer left after them. -/
theorem frames_length_ticks (m : Nat) {s : State} (hrange : SeqInRange s) :
    (ticks m s).frames.length + (ticksLeft s - m) / (s.seq.dL.toNat + 1) = s.frames.length + columnsLeft s := by
  rw [← ticksLeft_ticks m hrange, ← (ticks_sameScroll m s).dL, ← columnsLeft_eq_div (seqInRange_ticks m hrange)]
  exact frames_add_columnsLeft_ticks m hrange

/-! ## The start of a scroll -/

theorem exec_scroll {s : State} (hready : Ready s) : exec .scroll s = .next (startScroll s) := command_ready _ hready

section
variable {s : State} (hstr : s.strlen ≠ 0)
include hstr

theorem seqInRange_startScroll : SeqInRange (startScroll s) := by
  rw [startScroll_of_ne hstr]
  exact ⟨fun _ => Nat.pos_of_ne_zero hstr, nofun⟩

theorem columnsLeft_startScroll : columnsLeft (startScroll s) = 8 * s.strlen := by
  rw [startScroll_of_ne hstr, columnsLeft_step rfl]
  rfl

theorem toNat_dL_startScroll : (startScroll s).seq.dL.toNat = s.delay.toNat / 8 := by
  rw [startScroll_of_ne hstr]
  exact toNat_columnDelay s.delay

/-- A scroll takes `d + 1` ticks for each column (R136). -/
theorem ticksLeft_startScroll : ticksLeft (startScroll s) = 8 * s.strlen * (s.delay.toNat / 8 + 1) := by
  have hdelay : delayLeft (startScroll s) = 0 := by rw [startScroll_of_ne hstr, delayLeft_step rfl]
  rw [ticksLeft, columnsLeft_startScroll hstr, toNat_dL_startScroll hstr, hdelay, Nat.add_zero]

end

/-- Within the time of column step `k`, of `n` of them, the steps after it are left whole. -/
theorem ticks_after_column {k j n d : Nat} (hk : k < n) (hj : 1 ≤ j) (hjd : j ≤ d + 1) :
    (n * (d + 1) - (k * (d + 1) + j)) / (d + 1) = n - (k + 1) := by
  obtain ⟨r, rfl⟩ := Nat.exists_eq_add_of_lt hk
  have hleft : (k + r + 1) * (d + 1) - (k * (d + 1) + j) = (d + 1) * r + (d + 1 - j) := by
    have hsplit : (k + r + 1) * (d + 1) = k * (d + 1) + (d + 1) * r + (d + 1) := by ring
    omega
  rw [hleft, Nat.mul_add_div (by omega), Nat.div_eq_of_lt (by omega)]
  omega

/-! ## Host accesses between the ticks -/

theorem ticks_withHostSide (m : Nat) : ∀ (s : State) (h : HostSide),
    ticks m (s.withHostSide h) = (ticks m s).withHostSide h := by
  induction m with
  | zero => exact fun _ _ => rfl
  | succ m ih =>
    intro s h
    rw [ticks, tick_withHostSide, ih, ticks]

theorem ticks_ticks (m n : Nat) : ∀ s : State, ticks n (ticks m s) = ticks (m + n) s := by
  induction m with
  | zero => exact fun s => by rw [Nat.zero_add, ticks]
  | succ m ih => exact fun s => by rw [ticks, ih, Nat.succ_add, ticks]

theorem SameButHostSide.of_withHostSide {t u : State} {h : HostSide} (hsame : SameButHostSide (t.withHostSide h) u) :
    SameButHostSide t u := hsame

/-- A field that is not on the host's side is the same. -/
theorem SameButHostSide.field_eq {α : Type} {t u : State} (hsame : SameButHostSide t u) (f : State → α)
    (hf : ∀ h, f (t.withHostSide h) = f t) : f u = f t := by
  have heq : u = t.withHostSide u.hostSide := hsame
  exact (congrArg f heq).trans (hf _)

theorem SeqInRange.withHostSide {s : State} (hrange : SeqInRange s) (h : HostSide) : SeqInRange (s.withHostSide h) :=
  ⟨hrange.index, hrange.wait⟩

/-- A host access during a scroll changes the host's side only (R140). -/
theorem step_access {s : State} (hfault : s.fault = false) (hbusy : s.busy = true) {e : Input}
    (haccess : isAccessOrTick e = true) (hne : e ≠ .tick) (rest : List Input) :
    ∃ h, step { s with inputs := e :: rest } = .next { s.withHostSide h with inputs := rest } := by
  cases e with
  | tick => exact absurd rfl hne
  | reset | attach => cases haccess
  | portRead a => exact ⟨{ s.hostSide with replies := s.replies ++ [portValue a s] }, rfl⟩
  | portWrite a v =>
    have hin : ({ s with inputs := .portWrite a v :: rest } : State).inputs = .portWrite a v :: rest := rfl
    cases hreg : portReg a with
    | cmd => exact ⟨{ s.hostSide with err := .busy }, step_write_busy hfault hbusy hin (.inl hreg)⟩
    | str => exact ⟨{ s.hostSide with err := .busy }, step_write_busy hfault hbusy hin (.inr (.inl hreg))⟩
    | data => exact ⟨{ s.hostSide with err := .busy }, step_write_busy hfault hbusy hin (.inr (.inr hreg))⟩
    | fg => exact ⟨{ s.hostSide with fg := v.extractLsb' 0 16 }, step_write_fg hin hfault hreg⟩
    | bg => exact ⟨{ s.hostSide with bg := v.extractLsb' 0 16 }, step_write_bg hin hfault hreg⟩
    | delay => exact ⟨{ s.hostSide with delay := v }, step_write_delay hin hfault hreg⟩
    | status | result | strlen | fbwin | unmapped =>
      exact ⟨s.hostSide, step_write_ignored hin (by rw [hreg]; rfl)⟩

/-- A step during a scroll, of a host access or of a tick, is the tick alone but for the host's side (R140). -/
theorem step_access_or_tick {s : State} (hfault : s.fault = false) (hbusy : s.busy = true) {e : Input}
    (haccess : isAccessOrTick e = true) (rest : List Input) :
    ∃ h, step { s with inputs := e :: rest } =
      .next { (ticks ([e].count .tick) s).withHostSide h with inputs := rest } := by
  by_cases htick : e = .tick
  · rw [htick, List.count_singleton_self, ticks, ticks]
    have hunseen := tick_withHostSide s { s.hostSide with inputs := rest }
    exact ⟨{ s.hostSide with inputs := rest }, congrArg Host.Outcome.next hunseen⟩
  · rw [List.count_singleton, if_neg (by simpa using htick)]
    exact step_access hfault hbusy haccess htick rest

/-- The first input of an interleaving comes while the scroll runs, and so do the others after it. -/
theorem DuringScroll.of_cons {n : Nat} {e : Input} {es : List Input} (h : DuringScroll n (e :: es)) :
    isAccessOrTick e = true ∧ 0 < n ∧ (es ≠ [] → DuringScroll (n - [e].count .tick) es) := by
  obtain ⟨haccess, hcount⟩ := h
  refine ⟨haccess e List.mem_cons_self, by omega,
    fun hes => ⟨fun e' he' => haccess e' (List.mem_cons_of_mem e he'), ?_⟩⟩
  rw [List.dropLast_cons_of_ne_nil hes, ← List.singleton_append, List.count_append] at hcount
  omega

/-- After any interleaving of accesses and ticks during a scroll the block is as after the ticks alone, but for the
host's side (R50, R140). -/
theorem steps_during_scroll (rest : List Input) (es : List Input) : ∀ {s : State}, SeqInRange s → s.fault = false →
    (es ≠ [] → DuringScroll (ticksLeft s) es) →
    ∃ u, steps es.length { s with inputs := es ++ rest } = .next u ∧ u.inputs = rest ∧
      SameButHostSide (ticks (es.count .tick) s) u := by
  induction es with
  | nil => exact fun {s} _ _ _ => ⟨{ s with inputs := rest }, rfl, rfl, rfl⟩
  | cons e es ih =>
    intro s hrange hfault hduring
    obtain ⟨haccess, hleft, htail⟩ := (hduring (List.cons_ne_nil e es)).of_cons
    obtain ⟨h, hstep⟩ :=
      step_access_or_tick hfault ((busy_iff_ticksLeft_pos hrange).2 hleft) haccess (es ++ rest)
    rw [← ticksLeft_ticks _ hrange] at htail
    obtain ⟨u, hsteps, hinputs, hsame⟩ :=
      ih ((seqInRange_ticks _ hrange).withHostSide h) ((ticks_sameScroll _ s).fault.trans hfault) htail
    rw [ticks_withHostSide, ticks_ticks, ← List.count_append, List.singleton_append] at hsame
    refine ⟨u, ?_, hinputs, hsame.of_withHostSide⟩
    simp only [List.length_cons, List.cons_append, steps, hstep, hsteps]

/-- Settles O44: the ticks that are left tell the frames and BUSY, and the accesses between them are not seen. -/
theorem scrollTiming : Obligations.ScrollTiming := by
  intro s hready hstr
  have hrange := seqInRange_startScroll hstr
  have htotal := ticksLeft_startScroll hstr
  have hframes := fun m => frames_length_ticks m hrange
  rw [htotal, toNat_dL_startScroll hstr, columnsLeft_startScroll hstr, startScroll_frames] at hframes
  refine ⟨startScroll s, exec_scroll hready, startScroll_frames s, fun k j hk hj hjd => ?_, fun m hm => ?_, ?_, ?_,
    fun es rest hduring => ?_⟩
  · have hcount := hframes (k * (s.delay.toNat / 8 + 1) + j)
    rw [ticks_after_column hk hj hjd] at hcount
    omega
  · rwa [busy_ticks_iff hrange, htotal]
  · rw [← htotal]
    exact busy_ticks_ticksLeft hrange
  · simpa using hframes (8 * s.strlen * (s.delay.toNat / 8 + 1))
  · rw [← htotal] at hduring
    exact steps_during_scroll rest es hrange ((startScroll_fault s).trans hready.1) fun _ => hduring

end Sys2Proof.Machine
end

section
/-! PROOF. What a scroll shows, and what it shows at its end. -/

namespace Sys2Proof.Machine

/-! ## The columns of a running scroll -/

/-- The blob of the character that a scroll is at, in the latched colours (R133). -/
def currentBlob (s : State) : Blob := raster (strAt s.strbuf s.seq.i) s.seq.fgL s.seq.bgL

/-- A scroll of `n` characters shows what it has shifted in so far: the columns of the current character up to `c`, and
at its end the whole last character (R133–R135). -/
structure ScrollShows (n : Nat) (s : State) : Prop where
  range : SeqInRange s
  string : s.seq.phase ≠ .idle → s.strlen = n
  glyph : s.seq.phase = .wait ∨ (s.seq.phase = .step ∧ s.seq.c ≠ 0) → s.seq.g = currentBlob s
  step : s.seq.phase = .step → ShiftedIn s.orient s.seq.c.val (blobCell (currentBlob s)) s.fb
  wait : s.seq.phase = .wait → ShiftedIn s.orient (s.seq.c.val + 1) (blobCell (currentBlob s)) s.fb
  complete : s.seq.phase = .idle →
    s.strlen = 0 ∧ ShiftedIn s.orient 8 (blobCell (raster (strAt s.strbuf (n - 1)) s.seq.fgL s.seq.bgL)) s.fb

theorem scrollShows_startScroll {s : State} (hstr : s.strlen ≠ 0) : ScrollShows s.strlen (startScroll s) := by
  have hrange := seqInRange_startScroll hstr
  rw [startScroll_of_ne hstr] at hrange ⊢
  exact ⟨hrange, fun _ => rfl, by simp, fun _ => shiftedIn_zero _ _ _, nofun, nofun⟩

/-- The blob that a column step reads is the current character's: it is loaded now or was with an earlier column. -/
theorem ScrollShows.loadGlyph_g {n : Nat} {s : State} (hshows : ScrollShows n s) (hstep : s.seq.phase = .step) :
    (loadGlyph s).seq.g = currentBlob s := by
  rw [loadGlyph_seq]
  split
  · rfl
  · next hc => exact hshows.glyph (.inr ⟨hstep, hc⟩)

/-- `t` is a state of the scroll of `s` in which column `c` of `s` is the last that was shifted in. -/
structure ColumnIn (s t : State) : Prop where
  same : SameScroll s t
  glyph : t.seq.g = currentBlob s
  shifted : ShiftedIn s.orient (s.seq.c.val + 1) (blobCell (currentBlob s)) t.fb

/-- A tick of a running scroll shifts column `c` in, or finds it shifted in (R133). -/
theorem ScrollShows.columnIn_tick {n : Nat} {s : State} (hshows : ScrollShows n s) (hbusy : s.seq.phase ≠ .idle) :
    ColumnIn s (tick s) := by
  have hsame := tick_sameScroll s
  cases hphase : s.seq.phase with
  | idle => exact absurd hphase hbusy
  | step =>
    have hg := hshows.loadGlyph_g hphase
    refine ⟨hsame, (tick_step_latched hphase).g.trans hg, ?_⟩
    rw [tick_step_fb hphase, hg]
    exact (hshows.step hphase).shiftIn
  | wait =>
    obtain ⟨honly, hg, -, -⟩ := tick_wait_effect hphase
    refine ⟨hsame, hg.trans (hshows.glyph (.inl hphase)), ?_⟩
    rw [honly]
    exact hshows.wait hphase

/-- At the same character the blob is the same. -/
theorem SameScroll.currentBlob_eq {s t : State} (hsame : SameScroll s t) (hi : t.seq.i = s.seq.i) :
    currentBlob t = currentBlob s := by
  rw [currentBlob, currentBlob, hsame.strbuf, hsame.fgL, hsame.bgL, hi]

section
variable {n : Nat} {s t : State} (hrange : SeqInRange t) (hlen : s.strlen = n) (hcolumn : ColumnIn s t)
include hrange hlen hcolumn

/-- Waiting after column `c` shows the columns up to it. -/
theorem WaitsAt.scrollShows (hwaits : WaitsAt s t) : ScrollShows n t := by
  obtain ⟨hphase, hc, hi, hlen'⟩ := hwaits
  obtain ⟨hsame, hg, hin⟩ := hcolumn
  have hblob := hsame.currentBlob_eq hi
  exact {
    range := hrange
    string := fun _ => hlen'.trans hlen
    glyph := fun _ => hg.trans hblob.symm
    step := by simp [hphase]
    wait := fun _ => by rwa [hsame.orient, hc, hblob]
    complete := by simp [hphase] }

/-- Advancing after column `c` shows the columns up to it, no column of the next character, or the whole last one
(R134, R135). -/
theorem Advanced.scrollShows (hadv : Advanced s t) (hindex : s.seq.i < s.strlen) : ScrollShows n t := by
  obtain ⟨hnextColumn, hcharacter, hcomplete⟩ := hadv
  obtain ⟨hsame, hg, hin⟩ := hcolumn
  have hc := s.seq.c.isLt
  by_cases hc7 : s.seq.c.val < 7
  · obtain ⟨hphase, hc', hi, hlen'⟩ := hnextColumn hc7
    have hblob := hsame.currentBlob_eq hi
    exact {
      range := hrange
      string := fun _ => hlen'.trans hlen
      glyph := fun _ => hg.trans hblob.symm
      step := fun _ => by rwa [hsame.orient, hc', hblob]
      wait := by simp [hphase]
      complete := by simp [hphase] }
  · have hc7 : s.seq.c.val = 7 := by omega
    by_cases hnext : s.seq.i + 1 < s.strlen
    · obtain ⟨hphase, hc', -, hlen'⟩ := hcharacter hc7 hnext
      exact {
        range := hrange
        string := fun _ => hlen'.trans hlen
        glyph := by simp [hphase, Fin.ext_iff, hc']
        step := fun _ => by rw [hc']; exact shiftedIn_zero _ _ _
        wait := by simp [hphase]
        complete := by simp [hphase] }
    · obtain ⟨hphase, -, hlen'⟩ := hcomplete hc7 (by omega)
      have hlast : n - 1 = s.seq.i := by omega
      rw [hc7, currentBlob] at hin
      exact {
        range := hrange
        string := by simp [hphase]
        glyph := by simp [hphase]
        step := by simp [hphase]
        wait := by simp [hphase]
        complete := fun _ => ⟨hlen', by rwa [hsame.orient, hsame.strbuf, hsame.fgL, hsame.bgL, hlast]⟩ }

end

/-- Every tick of a scroll keeps what it shows right. -/
theorem ScrollShows.tick {n : Nat} {s : State} (hshows : ScrollShows n s) : ScrollShows n (tick s) := by
  by_cases hidle : s.seq.phase = .idle
  · rwa [tick_idle hidle]
  · have hlen := hshows.string hidle
    have hrange := seqInRange_tick hshows.range
    have hcolumn := hshows.columnIn_tick hidle
    rcases tick_advanced_or_waits hshows.range hidle with ⟨-, hadv⟩ | ⟨-, hwaits, -⟩
    · exact hadv.scrollShows hrange hlen hcolumn (hshows.range.index hidle)
    · exact hwaits.scrollShows hrange hlen hcolumn

/-! ## The end -/

/-- The state after the last tick of a scroll. -/
def scrollEnd (s : State) : State := ticks (8 * s.strlen * (s.delay.toNat / 8 + 1)) (startScroll s)

section
variable {s : State} (hstr : s.strlen ≠ 0)
include hstr

theorem busy_scrollEnd : (scrollEnd s).busy = false := by
  rw [scrollEnd, ← ticksLeft_startScroll hstr]
  exact busy_ticks_ticksLeft (seqInRange_startScroll hstr)

/-- At its end a scroll has consumed the string and shows the last character as SHOWCHAR would (R135, R137). -/
theorem scrollEnd_shows : (scrollEnd s).strlen = 0 ∧ (scrollEnd s).fb = glyphFrame (lastChar s) s := by
  have hshows : ScrollShows s.strlen (scrollEnd s) :=
    ticks_keeps (P := ScrollShows s.strlen) (fun _ => ScrollShows.tick) _ (scrollShows_startScroll hstr)
  obtain ⟨hlen, hin⟩ := hshows.complete ((busy_eq_false_iff _).1 (busy_scrollEnd hstr))
  have hsame : SameScroll (startScroll s) (scrollEnd s) := ticks_sameScroll _ _
  have hfg : (startScroll s).seq.fgL = s.fg := by rw [startScroll_of_ne hstr]
  have hbg : (startScroll s).seq.bgL = s.bg := by rw [startScroll_of_ne hstr]
  rw [hsame.orient, hsame.strbuf, hsame.fgL, hsame.bgL, hfg, hbg, startScroll_orient, startScroll_strbuf] at hin
  exact ⟨hlen, frame_ext_logical s.orient fun x y => by rw [hin.cell_eq, raster_cell, cell_glyphFrame_idx, lastChar]⟩

end

/-- Settles O45: a scroll that is over shows the whole last character, and the accesses between its ticks are not
seen. -/
theorem scrollEndsOnTheLastCharacter : Obligations.ScrollEndsOnTheLastCharacter := by
  intro s hready hstr
  have hbusy := busy_scrollEnd hstr
  obtain ⟨hlen, hfb⟩ := scrollEnd_shows hstr
  have hsame : SameScroll (startScroll s) (scrollEnd s) := ticks_sameScroll _ _
  have horient := hsame.orient.trans (startScroll_orient s)
  refine ⟨startScroll s, scrollEnd s, exec_scroll hready, rfl, hbusy, hlen,
    hsame.err.trans (startScroll_err s), horient, fun x y => ?_, ⟨_, exec_showchar hready _, by rw [mutate_fb, hfb]⟩, fun es rest hduring hcount => ?_⟩
  · rw [hfb, cell_glyphFrame_idx]
  · rw [← ticksLeft_startScroll hstr] at hduring
    obtain ⟨w, hsteps, -, hw⟩ := steps_during_scroll rest es (seqInRange_startScroll hstr)
      ((startScroll_fault s).trans hready.1) fun _ => hduring
    rw [hcount] at hw
    have hw : SameButHostSide (scrollEnd s) w := hw
    exact ⟨w, hsteps, (hw.field_eq State.busy fun _ => rfl).trans hbusy,
      (hw.field_eq State.strlen fun _ => rfl).trans hlen,
      (hw.field_eq State.orient fun _ => rfl).trans horient, hw.field_eq State.fb fun _ => rfl⟩

end Sys2Proof.Machine
end

section
/-! PROOF. The control commands. -/

namespace Sys2Proof.Machine

section
variable {s : State} (hready : Ready s)
include hready

/-- NOP in a ready block (R141). -/
theorem exec_nop : exec .nop s = .next s := command_ready _ hready

/-- CLRERR in a ready block (R142). -/
theorem exec_clrerr : exec .clrerr s = .next (clearError s) := command_ready _ hready

/-- FLUSH in a ready block (R143). -/
theorem exec_flush : exec .flush s = .next (emit s) := command_ready _ hready

end

/-- Settles O21: FLUSH only emits, so the frame and the rest of the state are what `emit` sends and leaves. -/
theorem controlCommands : Obligations.ControlCommands := by
  intro s hready
  have hflush : (emit s).fb = s.fb ∧ EmittedOnce s (emit s) ∧ OnlyDisplay s (emit s) :=
    ⟨emit_fb s, emit_emittedOnce s, emit_onlyDisplay s⟩
  exact ⟨exec_nop hready, exec_clrerr hready, emit s, exec_flush hready, hflush⟩

end Sys2Proof.Machine
end

section
/-! PROOF. Errors and the fault: which one a write reports, what an error leaves alone, and the fault state. -/

namespace Sys2Proof.Machine

/-! ## Operand errors -/

/-- LENGTH is the error of the two commands that consume the staging buffer (R95, R126, R145). -/
theorem consumesStage_of_length {i : Instr} {s : State} (herr : operandError i s = some .length) :
    i = .setdata ∨ i = .shifts := by
  cases i with
  | setdata => exact .inl rfl
  | shifts => exact .inr rfl
  | setpx | getpx | setpxa | getpxa | rotate => simp [operandError] at herr
  | _ => cases herr

/-- COORD is no error of these two (R145). -/
theorem not_consumesStage_of_coord {i : Instr} {s : State} (herr : operandError i s = some .coord) :
    ¬ (i = .setdata ∨ i = .shifts) := by
  rintro (rfl | rfl) <;> simp [operandError] at herr

/-- ANGLE is the error of ROTATE by no multiple of 90 (R104, R145). -/
theorem exists_rotate_of_angle {i : Instr} {s : State} (herr : operandError i s = some .angle) :
    ∃ deg, i = .rotate deg ∧ deg % 90 ≠ 0 := by
  cases i with
  | rotate deg => exact ⟨deg, rfl, by simpa [operandError] using herr⟩
  | setpx | getpx | setpxa | getpxa | setdata | shifts => simp [operandError] at herr
  | _ => cases herr

/-- A command with an operand error runs the error procedure of its code, or the fault procedure (R147, R149). -/
theorem CommandEffect.of_operandError {i : Instr} {s t : State} {c : ErrCode} (heffect : CommandEffect i s t)
    (herr : operandError i s = some c) :
    (c = .coord ∧ t = raiseError .coord s) ∨ (c = .length ∧ t = raiseError .length (clearStage s)) ∨
    (c = .angle ∧ t = raiseFault .angle s) := by
  cases heffect with
  | coord hcoord => exact .inl ⟨Option.some.inj (herr.symm.trans hcoord), rfl⟩
  | length hlength => exact .inr (.inl ⟨Option.some.inj (herr.symm.trans hlength), rfl⟩)
  | angle hangle => exact .inr (.inr ⟨Option.some.inj (herr.symm.trans hangle), rfl⟩)
  | draw _ _ _ hok | drawStaged _ _ _ hok | value _ _ hok => cases herr.symm.trans hok
  | setorient | unpack | flush | nop | clrerr | dataclr | strclr | scroll => cases herr

/-- An operand error is the one that ERR reports. -/
theorem CommandEffect.err_eq {i : Instr} {s t : State} {c : ErrCode} (heffect : CommandEffect i s t)
    (herr : operandError i s = some c) : t.err = c := by
  obtain ⟨rfl, rfl⟩ | ⟨rfl, rfl⟩ | ⟨rfl, rfl⟩ := heffect.of_operandError herr <;> rfl

/-- Settles O10: COORD is raised on the state as it is, and LENGTH, which only SETDATA and SHIFTS raise, on the state with
the staging buffer emptied. -/
theorem operandErrorsArePrecise : Obligations.OperandErrorsArePrecise := by
  intro i s c hready herr hc
  obtain ⟨t, hexec⟩ := exec_next i s
  rw [hexec]
  obtain ⟨rfl, rfl⟩ | ⟨rfl, rfl⟩ | ⟨rfl, -⟩ := (exec_ready_effect hready hexec).of_operandError herr
  · simp only [if_neg (not_consumesStage_of_coord herr)]
    rfl
  · simp only [if_pos (consumesStage_of_length herr)]
    rfl
  · exact absurd rfl hc

/-! ## The priority of the errors of one write (R151) -/

section
variable {s : State} {a : PortAddr} {v : Word} {rest : List Input} (hready : Ready s)
  (hin : s.inputs = .portWrite a v :: rest)
include hready hin

/-- In a ready block a malformed word raises ILLEGAL and has no other effect, at each register that refuses one
(R65–R67, R94, R129). -/
theorem step_write_malformed (hbad : (portReg a = .cmd ∧ ∃ why, decode v = .illegal why) ∨
    (portReg a = .str ∧ v.extractLsb' 21 11 ≠ 0) ∨ (portReg a = .data ∧ v.extractLsb' 16 16 ≠ 0)) :
    step s = .next { s with inputs := rest, err := .illegal } := by
  have hready' : Ready { s with inputs := rest } := hready
  obtain ⟨hreg, why, hdec⟩ | ⟨hreg, hhigh⟩ | ⟨hreg, hhigh⟩ := hbad
  · obtain rfl := eq_cmdAddr_of_portReg hreg
    exact step_write_illegal hready hin hdec
  · rw [step_write_str hin hready.1 hreg, writeStr_illegal hready' (mt (high_bits_eq_zero_iff_codepoint v).2 hhigh)]
  · rw [step_write_data hin hready.1 hreg, writeData_illegal hready' (mt (high_half_eq_zero_iff v).2 hhigh)]

/-- In a ready block a command's operand error is reported (R145). -/
theorem step_write_operandError (hreg : portReg a = .cmd) {i : Instr} {c : ErrCode} (hdec : decode v = .command i)
    (herr : operandError i s = some c) : ∃ t, step s = .next t ∧ t.err = c := by
  have hready' : Ready { s with inputs := rest } := hready
  obtain rfl := eq_cmdAddr_of_portReg hreg
  obtain ⟨t, hexec⟩ := exec_next i { s with inputs := rest }
  have herr' : operandError i { s with inputs := rest } = some c := (operandError_inputs i s rest).trans herr
  exact ⟨t, (step_write_command hin hdec).trans hexec, (exec_ready_effect hready' hexec).err_eq herr'⟩

/-- In a ready block a codepoint for a full string buffer raises STROVF and has no other effect (R129). -/
theorem step_write_strovf (hreg : portReg a = .str) (hlow : v.extractLsb' 21 11 = 0) (hfull : s.strlen = s.strcap) :
    step s = .next { s with inputs := rest, err := .strovf } := by
  have hready' : Ready { s with inputs := rest } := hready
  rw [step_write_str hin hready.1 hreg, writeStr_overflow hready' ((high_bits_eq_zero_iff_codepoint v).1 hlow) hfull]

end

/-- Settles O9: FAULT, then BUSY, then ILLEGAL, then the operand check of the command or of the append. -/
theorem writeErrorPriority : Obligations.WriteErrorPriority := by
  intro s a v rest hin
  exact ⟨step_write_fault hin, fun hfault hbusy => step_write_busy hfault hbusy hin,
    fun hready => step_write_malformed hready hin,
    fun hready hreg _ _ => step_write_operandError hready hin hreg,
    fun hready => step_write_strovf hready hin⟩

/-! ## The fault -/

theorem tick_fault (s : State) : (tick s).fault = s.fault := (tick_sameScroll s).fault

/-- A command that writes FAULT is a ROTATE by no multiple of 90, which takes the fault ANGLE (R149). -/
theorem CommandEffect.fault_cases {i : Instr} {s t : State} (heffect : CommandEffect i s t) :
    t.fault = s.fault ∨ ∃ deg, i = .rotate deg ∧ deg % 90 ≠ 0 ∧ t = raiseFault .angle s := by
  cases heffect with
  | angle herr =>
    obtain ⟨deg, hi, hdeg⟩ := exists_rotate_of_angle herr
    exact .inr ⟨deg, hi, hdeg, rfl⟩
  | scroll => exact .inl (startScroll_fault s)
  | coord | length | draw | drawStaged | setorient | value | unpack | flush | nop | clrerr | dataclr | strclr =>
    exact .inl rfl

/-- A step leaves FAULT alone, or it is the reset that clears it, or the ROTATE in a ready block that sets it
(R28, R149, R150). -/
theorem StepEffect.fault_cases {s t : State} (heffect : StepEffect s t) :
    t.fault = s.fault ∨ (t.fault = false ∧ ∃ rest, s.inputs = .reset :: rest) ∨
    ∃ w rest deg, s.inputs = .portWrite cmdAddr w :: rest ∧ decode w = .command (.rotate deg) ∧ deg % 90 ≠ 0 ∧
      Ready s ∧ t = { s with inputs := rest, err := .angle, fault := true } := by
  cases heffect with
  | idle => exact .inl (tick_fault s)
  | tick rest => exact .inl (tick_fault { s with inputs := rest })
  | reset rest hin => exact .inr (.inl ⟨rfl, rest, hin⟩)
  | command hin hdec hready hcmd =>
    obtain hsame | ⟨deg, rfl, hdeg, rfl⟩ := hcmd.fault_cases
    · exact .inl hsame
    · exact .inr (.inr ⟨_, _, deg, hin, hdec, hdeg, hready, rfl⟩)
  | str cp => exact .inl (pushCodepoint_fault cp _)
  | read | attach | error | data | overflow | control => exact .inl rfl

/-- Settles O12: FAULT was 0 and is 1, so the step neither left it alone nor was the reset. -/
theorem faultComesOnlyFromRotate : Obligations.FaultComesOnlyFromRotate := by
  intro s t hstep hclear hset
  obtain hsame | ⟨hreset, -⟩ | hrotate := (step_effect hstep).fault_cases
  · cases hset.symm.trans (hsame.trans hclear)
  · cases hset.symm.trans hreset
  · exact hrotate

/-- A step in the fault state leaves FAULT at 1, or it is the reset (R150). -/
theorem step_fault_or_reset {s t : State} (hfault : s.fault = true) (hstep : step s = .next t) :
    t.fault = true ∨ ∃ rest, s.inputs = .reset :: rest := by
  obtain hsame | ⟨-, hreset⟩ | ⟨_, _, _, -, -, -, ⟨hclear, -⟩, -⟩ := (step_effect hstep).fault_cases
  · exact .inl (hsame.trans hfault)
  · exact .inr hreset
  · cases hfault.symm.trans hclear

/-- Settles O11: no scroll runs in the fault state, so a tick finds the sequencer IDLE; and while FAULT stays 1 the
invariant, which every step keeps, holds ERR at ANGLE. -/
theorem faultStateIsHalted : Obligations.FaultStateIsHalted := by
  intro s hinv hfault
  refine ⟨fun a v rest hin => step_write_fault hin hfault, fun a rest hin => step_input hin,
    tick_idle (hinv.fault_idle hfault), fun t hstep => ?_, fun rest hin => ⟨_, step_input hin, rfl⟩⟩
  have hinv' : Inv t := stepKeepsTheInvariant s t hinv hstep
  exact (step_fault_or_reset hfault hstep).imp_left fun hstill => ⟨hstill, hinv'.fault_iff_angle.1 hstill⟩

end Sys2Proof.Machine
end

section
/-! PROOF. What reset leaves. -/

namespace Sys2Proof.Machine

/-! ## The state after the reset input -/

/-- Reset writes 0x0000 to every cell (R17, R161). -/
theorem cell_hardReset (s : State) (j : Fin 64) : cell (hardReset s).fb j = 0x0000 := by
  rw [hardReset_eq, State.resetWith_fb, cell, Vector.getElem_replicate]

/-- STATUS is a word of registers that reset clears, so it reads what it reads right after the first reset (R25, R161). -/
theorem statusWord_hardReset (s : State) : statusWord (hardReset s) = statusWord State.reset := rfl

/-- Settles O56: the step is `hardReset`, which starts from `State.resetWith`, so every register has its reset value by
definition, and takes over from the state before the reset only the stream, STRCAP and what is no state of the block. -/
theorem resetValues : Obligations.ResetValues := by
  intro s rest hin
  have hidle : (hardReset { s with inputs := rest }).seq.phase = .idle := rfl
  refine ⟨_, step_input hin, cell_hardReset _, rfl, rfl, rfl, rfl, rfl, rfl, rfl, rfl, rfl, rfl, hidle,
    (busy_eq_false_iff _).2 hidle, rfl, rfl, fun a ha => ?_⟩
  calc portValue a (hardReset { s with inputs := rest })
    _ = statusWord (hardReset { s with inputs := rest }) := portValue_status _ (portReg_status ha)
    _ = statusWord State.reset := statusWord_hardReset _
    _ = 0 := by decide

end Sys2Proof.Machine
end
